-- ==== Sys2Proof/Word.lean ====
section
/-! DEFINITION. The bit vectors of the block: bus words, bytes, colours and LZW codes (R22, R6, R10, R102). -/

namespace Sys2Proof

/-- A Host bus word and a register: 32 bits (R22, R64). -/
abbrev Word := BitVec 32

/-- A byte of IN_MEM and an index of IDX_MEM: 8 bits (R50, R51, R102). -/
abbrev Byte := BitVec 8

/-- A colour, red in bits 23:16, green in 15:8, blue in 7:0 (R10, R102). -/
abbrev Colour := BitVec 24

/-- An LZW code at its greatest width, 12 bits (R6, R90). -/
abbrev Code := BitVec 12

end Sys2Proof
end

