-- ==== Sys2Proof/Syntax.lean ====
section
/-! DEFINITION. The instructions: one constructor for each row of spec/opcode_table.json. Ten rows classify the words
written to CMD (R91 to R93), six classify the codes of the LZW stream (R97). -/

namespace Sys2Proof

/-- The block's instructions. -/
inductive Instr where
  /-- SOFT_RESET, word 0x00000001 (R92, R227). -/
  | softReset
  /-- CANVAS_INIT, word 0x00000002 (R92, R171). -/
  | canvasInit
  /-- LZW_DECODE, word 0x00000003 (R92, R130). -/
  | lzwDecode
  /-- COMPOSE, word 0x00000004 (R92, R175). -/
  | compose
  /-- DISPOSE, word 0x00000005 (R92, R190). -/
  | dispose
  /-- ABORT, word 0x00000006 (R92, R229). -/
  | abort
  /-- The reserved word with OP 0x0 and RSVD 0 (R93). -/
  | illegalOp0
  /-- The reserved word with OP 0x7 and RSVD 0 (R93). -/
  | illegalOp7
  /-- The reserved words with OP 0x8..0xF and RSVD 0; `low` is OP[2:0] (R93). -/
  | illegalOp8F (low : BitVec 3)
  /-- Every word with RSVD ≠ 0, whatever its OP (R93). -/
  | illegalRsvd (op : BitVec 4) (rsvd : BitVec 28)
  /-- A code equal to 2^M (R97, R133). -/
  | lzwClear (c : Code)
  /-- A code equal to 2^M + 1 (R97, R134). -/
  | lzwEnd (c : Code)
  /-- A root code with no previous code (R97, R135). -/
  | lzwFirst (c : Code)
  /-- An initialised code with a previous code (R97, R136). -/
  | lzwHit (c : Code)
  /-- The code equal to NEXT_FREE with a previous code (R97, R137). -/
  | lzwKwkwk (c : Code)
  /-- A code that names no initialised slot (R97, R140). -/
  | lzwInvalid (c : Code)
  deriving DecidableEq, Repr

/-- What an instruction is encoded as: a word for CMD, or a code of the LZW stream (R90). -/
inductive Encoded where
  | cmd (w : Word)
  | code (c : Code)
  deriving DecidableEq, Repr

/-- The part of the LZW engine state that decides the class of a code (R97): M, NEXT_FREE, PREV_VALID. -/
structure CodeCtx where
  m : Nat
  nextFree : Nat
  prevValid : Bool
  deriving DecidableEq, Repr

end Sys2Proof
end

