-- ==== Sys2Proof/WellFormed.lean ====
section
/-! DEFINITION. Which terms of `Instr` stand for an encoding: some word or code in some legal LZW engine state decodes
to them (R91, R93, R96, R97). -/

namespace Sys2Proof

/-- R131: minCodeSize is 2..8. -/
def legalMinCode (m : Nat) : Bool := decide (2 ≤ m) && decide (m ≤ 8)

/-- The engine states R97 speaks of: M is legal, NEXT_FREE is 2^M+2..4096 (R39), and it is 2^M+2 where there is no
previous code (R97). -/
def CodeCtx.legal (ctx : CodeCtx) : Bool :=
  legalMinCode ctx.m && decide (2 ^ ctx.m + 2 ≤ ctx.nextFree) && decide (ctx.nextFree ≤ 4096)
  && (ctx.prevValid || decide (ctx.nextFree = 2 ^ ctx.m + 2))

/-- A term is well formed when an encoding of R92, R93 or R97 gives it, in some legal engine state. -/
def Instr.wf : Instr → Bool
  | .softReset => true
  | .canvasInit => true
  | .lzwDecode => true
  | .compose => true
  | .dispose => true
  | .abort => true
  | .illegalOp0 => true
  | .illegalOp7 => true
  | .illegalOp8F _ => true
  | .illegalRsvd _ rsvd => decide (rsvd ≠ 0)
  | .lzwClear c => [2, 3, 4, 5, 6, 7, 8].any fun m => decide (c.toNat = 2 ^ m)
  | .lzwEnd c => [2, 3, 4, 5, 6, 7, 8].any fun m => decide (c.toNat = 2 ^ m + 1)
  | .lzwFirst c => decide (c.toNat < 2 ^ 8)
  | .lzwHit _ => true
  | .lzwKwkwk c => decide (2 ^ 2 + 2 ≤ c.toNat)
  | .lzwInvalid c => decide (2 ^ 2 + 2 ≤ c.toNat)

/-- The condition of R93 or R97 under which an encoding is of this row, in the engine state `ctx`. The classes of R97
are tested in order, so each excludes the ones before it. -/
def Instr.fits (ctx : CodeCtx) : Instr → Bool
  | .softReset => true
  | .canvasInit => true
  | .lzwDecode => true
  | .compose => true
  | .dispose => true
  | .abort => true
  | .illegalOp0 => true
  | .illegalOp7 => true
  | .illegalOp8F _ => true
  | .illegalRsvd _ rsvd => decide (rsvd ≠ 0)
  | .lzwClear c => decide (c.toNat = 2 ^ ctx.m)
  | .lzwEnd c => decide (c.toNat = 2 ^ ctx.m + 1)
  | .lzwFirst c => !ctx.prevValid && decide (c.toNat < 2 ^ ctx.m)
  | .lzwHit c => ctx.prevValid
      && (decide (c.toNat < 2 ^ ctx.m) || (decide (2 ^ ctx.m + 2 ≤ c.toNat) && decide (c.toNat < ctx.nextFree)))
  | .lzwKwkwk c => ctx.prevValid && decide (2 ^ ctx.m + 2 ≤ c.toNat) && decide (c.toNat = ctx.nextFree)
      && decide (ctx.nextFree < 4096)
  | .lzwInvalid c => decide (2 ^ ctx.m + 2 ≤ c.toNat)
      && (!ctx.prevValid || decide (ctx.nextFree < c.toNat))

end Sys2Proof
end

