-- ==== Sys2Proof/Decode.lean ====
section
/-! DEFINITION. Decoding of CMD words (R91 to R93) and of LZW codes (R95 to R97), total on both, and after it the
encoder, written from the same tables. -/

namespace Sys2Proof

/-- OP = w[3:0] (R91). -/
def cmdOp (w : Word) : BitVec 4 := w.extractLsb' 0 4

/-- RSVD = w[31:4] (R91). -/
def cmdRsvd (w : Word) : BitVec 28 := w.extractLsb' 4 28

/-- The OP map of R92 with the reserved and illegal words of R93: every word is of exactly one row. -/
def decodeCmd (w : Word) : Instr :=
  if cmdRsvd w ≠ 0 then .illegalRsvd (cmdOp w) (cmdRsvd w)
  else match (cmdOp w).toNat with
    | 0 => .illegalOp0
    | 1 => .softReset
    | 2 => .canvasInit
    | 3 => .lzwDecode
    | 4 => .compose
    | 5 => .dispose
    | 6 => .abort
    | 7 => .illegalOp7
    | _ => .illegalOp8F (w.extractLsb' 0 3)

/-- The class of a code, tested in the order of R97. -/
def decodeCode (ctx : CodeCtx) (c : Code) : Instr :=
  if c.toNat = 2 ^ ctx.m then .lzwClear c
  else if c.toNat = 2 ^ ctx.m + 1 then .lzwEnd c
  else if ctx.prevValid = false ∧ c.toNat < 2 ^ ctx.m then .lzwFirst c
  else if ctx.prevValid = true
      ∧ (c.toNat < 2 ^ ctx.m ∨ (2 ^ ctx.m + 2 ≤ c.toNat ∧ c.toNat < ctx.nextFree)) then .lzwHit c
  else if ctx.prevValid = true ∧ c.toNat = ctx.nextFree ∧ ctx.nextFree < 4096 then .lzwKwkwk c
  else .lzwInvalid c

/-- Decoding of either format (R90). -/
def decode (ctx : CodeCtx) : Encoded → Instr
  | .cmd w => decodeCmd w
  | .code c => decodeCode ctx c

/-- The value of bits read least-significant first (R120). -/
def codeOfBits : List Bool → Nat
  | [] => 0
  | b :: bs => b.toNat + 2 * codeOfBits bs

/-- Why a word numbered as the opcode table numbers it is no instruction. -/
inductive DecodeReject where
  /-- A CMD word has 32 bits. -/
  | wordTooWide
  /-- An LZW code has at most 12 bits (R6). -/
  | codeTooWide
  deriving DecidableEq, Repr

/-- The engine state in which `decodeTable` reads a code, since its class depends on one (log 17): M = 8 right after
the table's initialisation, with PREV_VALID = 0 for a code below 128 and PREV_VALID = 1 for any other. -/
def benchCtx (c : Nat) : CodeCtx where
  m := 8
  nextFree := 258
  prevValid := decide (128 ≤ c)

/-- The instruction of a table row's bits: rows of more than 16 bits are CMD words, the others LZW codes. -/
def decodeTable (nbits w : Nat) : Except DecodeReject Instr :=
  if 16 < nbits then
    if w < 2 ^ 32 then .ok (decodeCmd (BitVec.ofNat 32 w)) else .error .wordTooWide
  else if w < 2 ^ 12 then .ok (decodeCode (benchCtx w) (BitVec.ofNat 12 w))
  else .error .codeTooWide

def decodeTableWord (nbits w : Nat) : Option Instr :=
  match decodeTable nbits w with
  | .ok i => some i
  | .error _ => none

/-! The encoder. -/

/-- The word of a command with RSVD = 0: `{28'b0, OP}` (R91). -/
def cmdWord (op : BitVec 4) : Word := (0#28 ++ op : BitVec 32)

/-- The word written to CMD (R92, R93) or the code in the stream (R97) that an instruction stands for. -/
def encode : Instr → Encoded
  | .softReset => .cmd (cmdWord 0x1)
  | .canvasInit => .cmd (cmdWord 0x2)
  | .lzwDecode => .cmd (cmdWord 0x3)
  | .compose => .cmd (cmdWord 0x4)
  | .dispose => .cmd (cmdWord 0x5)
  | .abort => .cmd (cmdWord 0x6)
  | .illegalOp0 => .cmd (cmdWord 0x0)
  | .illegalOp7 => .cmd (cmdWord 0x7)
  | .illegalOp8F low => .cmd (cmdWord (1#1 ++ low : BitVec 4))
  | .illegalRsvd op rsvd => .cmd (rsvd ++ op : BitVec 32)
  | .lzwClear c => .code c
  | .lzwEnd c => .code c
  | .lzwFirst c => .code c
  | .lzwHit c => .code c
  | .lzwKwkwk c => .code c
  | .lzwInvalid c => .code c

/-- The bits of a code at a width, least-significant first, as they lie in the stream (R95, R120). -/
def codeBits (width : Nat) (c : Code) : List Bool := (List.range width).map fun i => c.getLsbD i

/-- Eight stream bits as a byte, the earliest in bit 0 (R120). -/
def byteOfBits (bits : List Bool) : Byte := BitVec.ofNat 8 (codeOfBits (bits.take 8))

/-- A bit stream as bytes, the last one filled up with zeros; `n` is how many bytes. -/
def packBits : Nat → List Bool → List Byte
  | 0, _ => []
  | n + 1, bits => byteOfBits bits :: packBits n (bits.drop 8)

/-- The stream bytes of codes, each at its width, packed one after another (R95). -/
def packCodes (codes : List (Nat × Code)) : List Byte :=
  let bits := codes.flatMap fun wc => codeBits wc.1 wc.2
  packBits ((bits.length + 7) / 8) bits

end Sys2Proof
end

