-- ==== Sys2Proof/Config.lean ====
section
/-! DEFINITION. The implementation parameters of R5 and the values the spec leaves open (93_implementation_defined.md,
U1 to U7), which are opaque: nothing can be proved of what they are. -/

namespace Sys2Proof

/-- The named parameters of R5. A state carries them; no step changes them (log 11). -/
structure Params where
  /-- MAX_DIM, the largest legal canvas or frame width and height. -/
  maxDim : Nat
  /-- IN_MEM_BYTES, the capacity of IN_MEM in bytes. -/
  inMemBytes : Nat
  /-- IDX_MEM_BYTES, the capacity of IDX_MEM in bytes. -/
  idxMemBytes : Nat
  /-- CANVAS_PIXELS, the capacity of CANVAS and of SNAP in cells. -/
  canvasPixels : Nat
  /-- BASE, the bus address of the block's offset 0. -/
  base : Nat
  deriving DecidableEq, Repr

/-- The legal ranges of R5. -/
def Params.legal (p : Params) : Bool :=
  decide (1 ≤ p.maxDim) && decide (p.maxDim ≤ 65535)
  && decide (1 ≤ p.inMemBytes) && decide (p.inMemBytes ≤ 2 ^ 24)
  && decide (1 ≤ p.idxMemBytes) && decide (p.idxMemBytes ≤ 224 * 2 ^ 20)
  && decide (1 ≤ p.canvasPixels) && decide (p.canvasPixels ≤ 2 ^ 27)
  && decide (p.base % 2 ^ 30 = 0)

/-- The defaults of R5. -/
def Params.defaults : Params where
  maxDim := 10000
  inMemBytes := 2 ^ 24
  idxMemBytes := 10000 * 10000
  canvasPixels := 10000 * 10000
  base := 0

/-- The block's memories of bytes and of colours, to tell their unwritten contents apart. -/
inductive Region where
  | inMem | idxMem | gct | lct | canvas | snap
  deriving DecidableEq, Repr

/-- FREE VALUE (R270, U1, U3, U4; log 3): what a byte of a memory holds that nothing has written since its contents
became unspecified. Arguments: the memory, the number of the draw that made them unspecified, the address. -/
opaque Config.unwrittenByte : Region → Nat → Nat → Byte

/-- FREE VALUE (R270, U1, U3, U4; log 3): the same of a colour cell. -/
opaque Config.unwrittenColour : Region → Nat → Nat → Colour

/-- FREE VALUE (R270, U2, U3; log 3): the PREFIX of a code table slot that nothing has written. -/
opaque Config.unwrittenPrefix : Nat → Nat → Option Code

/-- FREE VALUE (R270, U2, U3; log 3): the SUFFIX of a code table slot that nothing has written. -/
opaque Config.unwrittenSuffix : Nat → Nat → Byte

/-- FREE VALUE (R69, U5, U6; log 4): what a Host read of a memory that is being written returns, drawn afresh at each
read. Its argument is the number of the draw. -/
opaque Config.freshWord : Nat → Word

/-- FREE VALUE (R67, U7; log 5): what a CANVAS cell at or beyond CW × CH reads as. Arguments: the number of the draw
(one for each latched canvas), the cell. -/
opaque Config.beyondCanvas : Nat → Nat → Colour

end Sys2Proof
end

