-- ==== Sys2Proof/Machine/State.lean ====
section
/-! DEFINITION. The state of the block as plain data (10_state.md), the Host's pending accesses, the reasons a step can
stop, and the state after reset (R270). -/

namespace Sys2Proof.Machine

/-- ENG_STATE, the Engine's sequencer state (R47). -/
inductive EngState where
  | idle | init | lzw | compV | compS | compW | disp
  deriving DecidableEq, Repr

/-- FL_TSEL, the active colour table (R45, R101). Its value 3 is never loaded and has no constructor (log 14). -/
inductive TableSel where
  | noTable | globalTable | localTable
  deriving DecidableEq, Repr

/-- The error codes of R240, but for NONE. -/
inductive ErrorCode where
  | bitstreamExhausted | invalidLzwCode | shortPixelData | invalidImage | invalidResolution | invalidCodeSize
  | inputRange | invalidDisposal | sequenceError | illegalCommand | aborted
  deriving DecidableEq, Repr

/-- The caller-facing kinds of R243. -/
inductive CallerKind where
  | bufferingFailed | invalidGifImage | invalidResolution | invalidArgs | timedOut | alreadyProcessing
  deriving DecidableEq, Repr

/-- The fields of STATUS that are stored (R26). BUSY is `ENG_STATE ≠ IDLE` and is not stored twice (log 12). -/
structure Status where
  done : Bool
  err : Bool
  rej : Bool
  lastOp : BitVec 4
  errCode : Byte
  canvasValid : Bool
  idxValid : Bool
  framePending : Bool
  abortReq : Bool
  rejOp : BitVec 4
  rejMem : Bool
  deriving DecidableEq, Repr

/-- The read-write registers (R23, R28 to R37), each with the bits R22 lets it store. -/
structure ConfigRegs where
  irqEn : BitVec 3
  canvasSize : Word
  bgIndex : BitVec 8
  gctCfg : BitVec 4
  framePos : Word
  frameSize : Word
  frameFlags : BitVec 9
  transpIndex : BitVec 8
  lzwMin : BitVec 4
  inBase : Word
  inLen : Word
  deriving DecidableEq, Repr

/-- The LZW engine registers (R39), and CODE_START, the internal position of the code last read (R120, log 13). -/
structure LzwRegs where
  width : BitVec 4
  nextFree : BitVec 13
  prev : BitVec 12
  prevValid : Bool
  codeStart : Word
  deriving DecidableEq, Repr

/-- The canvas latch (R43). -/
structure CanvasLatch where
  cw : BitVec 16
  ch : BitVec 16
  bgRgb : Colour
  deriving DecidableEq, Repr

/-- The index latch (R44). -/
structure IndexLatch where
  idxW : BitVec 16
  idxH : BitVec 16
  lm : BitVec 4
  lbase : Word
  llen : Word
  deriving DecidableEq, Repr

/-- The frame latch (R45). -/
structure FrameLatch where
  left : BitVec 16
  top : BitVec 16
  w : BitVec 16
  h : BitVec 16
  interlace : Bool
  ten : Bool
  tsel : TableSel
  disp : BitVec 3
  tidx : BitVec 8
  tsize : BitVec 9
  deriving DecidableEq, Repr

/-- The working counters the pseudocode of 42_compositor.md keeps besides PROGRESS (log 13): n of R171 and R172, s of
R175 to R182, (x, y) of R190 and R193. -/
structure WorkCounters where
  n : Nat
  s : Nat
  x : Nat
  y : Nat
  deriving DecidableEq, Repr

/-- A memory: the cells that something has written since its contents became unspecified, by rising address, and the
number of the draw that made them so. A cell that is not listed holds a free value of that draw (log 3). -/
structure Store (α : Type) where
  draw : Nat
  cells : List (Nat × α)
  deriving DecidableEq, Repr

/-- A slot of the LZW code table: PREFIX, a code or NONE, and SUFFIX (R55). -/
structure Slot where
  prefixCode : Option Code
  suffixIdx : Byte
  deriving DecidableEq, Repr

/-- One event of a run (R4, R71): a Host access, or a point where the Engine may step. -/
inductive Event where
  /-- The Engine takes a step; while ENG_STATE = IDLE it takes none (R226). -/
  | engineStep
  /-- A Host read of `bytes` bytes at a bus address (R61). -/
  | read (addr : Nat) (bytes : Nat)
  /-- A Host write of `bytes` bytes at a bus address, with its byte enables (R61). -/
  | write (addr : Nat) (bytes : Nat) (enables : BitVec 4) (data : Word)
  /-- The pseudo-instruction WAIT (R104). -/
  | wait
  /-- The Host reads STATUS and stops with the mapped error if ERR = 1 (R275). -/
  | stopOnError
  /-- A hardware reset, where a platform provides one (R271). -/
  | hardwareReset
  deriving DecidableEq, Repr

/-- The outside world: the events to come, and what the Host has got. -/
structure HostPort where
  /-- The events that are still to happen, the first one first (log 1). -/
  events : List Event
  /-- The data of the last completed read (log 18). -/
  response : Option Word
  /-- The caller kind a program stopped with (R243, R275; log 19). -/
  verdict : Option CallerKind
  deriving DecidableEq, Repr

/-- The whole state. -/
structure State where
  /-- The parameters of R5 (log 11). -/
  params : Params
  /-- ENG_STATE (R47). -/
  eng : EngState
  /-- STATUS (R26). -/
  status : Status
  /-- The read-write registers (R23). -/
  regs : ConfigRegs
  /-- ERR_INFO0 (R38). -/
  errInfo0 : Word
  /-- ERR_INFO1 (R38). -/
  errInfo1 : Word
  /-- WIDTH, NEXT_FREE, PREV, PREV_VALID (R39) and CODE_START (R120). -/
  lzw : LzwRegs
  /-- BIT_POS (R41). -/
  bitPos : Word
  /-- PIX_COUNT (R42). -/
  pixCount : Word
  /-- PROGRESS (R46). -/
  progress : Word
  /-- n, s, x, y (log 13). -/
  work : WorkCounters
  /-- CW, CH, BG_RGB (R43). -/
  canvasLatch : CanvasLatch
  /-- IDX_W, IDX_H, LM, LBASE, LLEN (R44). -/
  indexLatch : IndexLatch
  /-- The frame latch (R45). -/
  frameLatch : FrameLatch
  /-- IN_MEM (R50). -/
  inMem : Store Byte
  /-- IDX_MEM (R51). -/
  idxMem : Store Byte
  /-- GCT (R52). -/
  gct : Store Colour
  /-- LCT (R52). -/
  lct : Store Colour
  /-- CANVAS (R53). -/
  canvas : Store Colour
  /-- SNAP (R54). -/
  snap : Store Colour
  /-- The LZW code table (R55). -/
  table : Store Slot
  /-- The model's own: the draw of the CANVAS cells beyond CW × CH (log 5). -/
  canvasDraw : Nat
  /-- The model's own: the number of the next draw of free values (log 22). -/
  draws : Nat
  /-- The Host and the schedule (log 1, log 18, log 19). -/
  host : HostPort
  deriving DecidableEq, Repr

/-- Why a step stops with a fault: the bus errors of R63, each raised by a Host access of Machine/Bus.lean. All are
SAFE: the block answers such an access and goes on, the model stops (log 8). -/
inductive Fault where
  /-- An access that is not 4 bytes wide, or a write with partial byte enables (R61). Raised by every Host access. -/
  | busWidth
  /-- A word access at an address that is not a multiple of 4 (R61). Raised by every Host access. -/
  | busMisaligned
  /-- An offset of R62 where nothing is mapped. Raised by every Host access. -/
  | busUnmapped
  /-- A word of a memory window at or beyond the memory's capacity (R62). Raised by every Host access. -/
  | busBeyondCapacity
  /-- A write to the IDX_MEM or CANVAS window (R62). Raised by Host writes. -/
  | busReadOnlyWindow
  /-- An address that is not one of the 2^30 bytes at BASE (R60, log 9). Raised by every Host access. -/
  | busOutsideBlock
  deriving DecidableEq, Repr

/-- Why an instruction has no meaning in the model. -/
inductive Refusal where
  /-- Raised by an arm of exec whose instruction is not modelled; SAFE. No arm raises it. -/
  | notModelled (mnemonic : String)
  deriving DecidableEq, Repr

/-- A memory whose contents a draw has just made unspecified (R270). -/
def Store.unspecified (α : Type) (draw : Nat) : Store α := { draw := draw, cells := [] }

/-- STATUS after reset, 0x00000000 (R270). -/
def Status.reset : Status where
  done := false
  err := false
  rej := false
  lastOp := 0
  errCode := 0
  canvasValid := false
  idxValid := false
  framePending := false
  abortReq := false
  rejOp := 0
  rejMem := false

/-- The read-write registers after reset, 0 each (R270). -/
def ConfigRegs.reset : ConfigRegs where
  irqEn := 0
  canvasSize := 0
  bgIndex := 0
  gctCfg := 0
  framePos := 0
  frameSize := 0
  frameFlags := 0
  transpIndex := 0
  lzwMin := 0
  inBase := 0
  inLen := 0

/-- The LZW engine registers after reset, 0 each (R270); CODE_START 0 is a DESIGN CHOICE (log 13). -/
def LzwRegs.reset : LzwRegs where
  width := 0
  nextFree := 0
  prev := 0
  prevValid := false
  codeStart := 0

/-- The working counters after reset, 0 each: a DESIGN CHOICE (log 13). -/
def WorkCounters.reset : WorkCounters where
  n := 0
  s := 0
  x := 0
  y := 0

/-- The canvas latch after reset (R270). -/
def CanvasLatch.reset : CanvasLatch where
  cw := 0
  ch := 0
  bgRgb := 0

/-- The index latch after reset (R270). -/
def IndexLatch.reset : IndexLatch where
  idxW := 0
  idxH := 0
  lm := 0
  lbase := 0
  llen := 0

/-- The frame latch after reset (R270). -/
def FrameLatch.reset : FrameLatch where
  left := 0
  top := 0
  w := 0
  h := 0
  interlace := false
  ten := false
  tsel := .noTable
  disp := 0
  tidx := 0
  tsize := 0

/-- The Host before its first access: nothing pending, nothing read (log 18, log 19). -/
def HostPort.reset : HostPort where
  events := []
  response := none
  verdict := none

/-- The reset state (R270, R271) with the default parameters of R5: every register at its reset value, every memory
unspecified (draw 0), no event pending (log 17). -/
def State.reset : State where
  params := Params.defaults
  eng := .idle
  status := Status.reset
  regs := ConfigRegs.reset
  errInfo0 := 0
  errInfo1 := 0
  lzw := LzwRegs.reset
  bitPos := 0
  pixCount := 0
  progress := 0
  work := WorkCounters.reset
  canvasLatch := CanvasLatch.reset
  indexLatch := IndexLatch.reset
  frameLatch := FrameLatch.reset
  inMem := Store.unspecified Byte 0
  idxMem := Store.unspecified Byte 0
  gct := Store.unspecified Colour 0
  lct := Store.unspecified Colour 0
  canvas := Store.unspecified Colour 0
  snap := Store.unspecified Colour 0
  table := Store.unspecified Slot 0
  canvasDraw := 0
  draws := 1
  host := HostPort.reset

end Sys2Proof.Machine
end

