-- ==== Sys2Proof/Machine/Ops.lean ====
section
/-! DEFINITION. The operations the instructions share: memories in canonical form, the end of an operation with an
error (R242) and without (R246), acceptance and rejection of requests (R221, R223), the Engine's memory primitives
(R76), NEXTCODE (R120) and the code table (R55, R132, R138, R142). -/

namespace Sys2Proof.Machine

/-! Memories. -/

/-- The value listed at an address, if one is. -/
def cellAt {α : Type} : List (Nat × α) → Nat → Option α
  | [], _ => none
  | (b, v) :: rest, a => if a = b then some v else cellAt rest a

/-- A memory's cells after a write of `v` to `a` (R71): the cells below `a`, the new one, the cells above `a`. -/
def putCell {α : Type} (a : Nat) (v : α) (cells : List (Nat × α)) : List (Nat × α) :=
  cells.filter (fun cell => decide (cell.1 < a)) ++ (a, v) :: cells.filter (fun cell => decide (a < cell.1))

/-- The canonical form of a memory: addresses strictly rising. An unlisted cell holds a free value, so no listed cell
repeats it (log 3). -/
def cellsWf {α : Type} (cells : List (Nat × α)) : Bool := decide (cells.Pairwise fun c d => c.1 < d.1)

def Store.wf {α : Type} (m : Store α) : Bool := cellsWf m.cells

/-- Every listed address is below a bound. -/
def Store.below {α : Type} (m : Store α) (bound : Nat) : Bool := m.cells.all fun cell => decide (cell.1 < bound)

/-- What cell `a` holds: what was written to it, else the free value given (R71). -/
def Store.get {α : Type} (m : Store α) (free : Nat → Nat → α) (a : Nat) : α :=
  (cellAt m.cells a).getD (free m.draw a)

def Store.put {α : Type} (m : Store α) (a : Nat) (v : α) : Store α := { m with cells := putCell a v m.cells }

/-- Cells 0..n−1 get the values of `f`, every other cell keeps its own (R132, R76 SnapCopy). -/
def Store.fillBelow {α : Type} (m : Store α) (n : Nat) (f : Nat → α) : Store α :=
  { m with cells := (List.range n).map (fun k => (k, f k)) ++ m.cells.filter (fun cell => decide (n ≤ cell.1)) }

/-! The contents of each memory (R50 to R55). -/

/-- IN_MEM[a]. -/
def inByte (s : State) (a : Nat) : Byte := s.inMem.get (Config.unwrittenByte .inMem) a

/-- IDX_MEM[a]. -/
def idxByte (s : State) (a : Nat) : Byte := s.idxMem.get (Config.unwrittenByte .idxMem) a

/-- GCT[i]. -/
def gctEntry (s : State) (i : Nat) : Colour := s.gct.get (Config.unwrittenColour .gct) i

/-- LCT[i]. -/
def lctEntry (s : State) (i : Nat) : Colour := s.lct.get (Config.unwrittenColour .lct) i

/-- CANVAS[n]. -/
def canvasCell (s : State) (n : Nat) : Colour := s.canvas.get (Config.unwrittenColour .canvas) n

/-- SNAP[n]. -/
def snapCell (s : State) (n : Nat) : Colour := s.snap.get (Config.unwrittenColour .snap) n

/-- A slot that nothing has written (U2). -/
def unwrittenSlot (draw k : Nat) : Slot where
  prefixCode := Config.unwrittenPrefix draw k
  suffixIdx := Config.unwrittenSuffix draw k

/-- Slot k of the code table. -/
def slotAt (s : State) (k : Nat) : Slot := s.table.get unwrittenSlot k

/-! The status of the Engine, and the ends of an operation. -/

/-- STATUS.BUSY: ENG_STATE ≠ IDLE (R26). -/
def busy (s : State) : Bool := decide (s.eng ≠ .idle)

/-- The value of ERR_CODE for an error (R240). -/
def errorByte : ErrorCode → Byte
  | .bitstreamExhausted => 0x01
  | .invalidLzwCode => 0x02
  | .shortPixelData => 0x03
  | .invalidImage => 0x04
  | .invalidResolution => 0x05
  | .invalidCodeSize => 0x06
  | .inputRange => 0x07
  | .invalidDisposal => 0x08
  | .sequenceError => 0x09
  | .illegalCommand => 0x0A
  | .aborted => 0x0B

/-- `raise E(i0, i1)`: the operation ends with an error, at acceptance or in a step (R242). -/
def raise (e : ErrorCode) (i0 i1 : Word) (s : State) : State :=
  { s with
    eng := .idle
    status := { s.status with done := false, err := true, errCode := errorByte e }
    errInfo0 := i0
    errInfo1 := i1 }

/-- `finish`: the operation ends successfully (R246). -/
def finish (s : State) : State :=
  { s with
    eng := .idle
    status := { s.status with done := true, err := false, errCode := 0 } }

/-- ACCEPT(op), the common acceptance actions (R223). -/
def accept (op : BitVec 4) (s : State) : State :=
  { s with
    status := { s.status with done := false, err := false, errCode := 0, lastOp := op }
    errInfo0 := 0
    errInfo1 := 0 }

/-- REJECT(op), the busy rejection (R221). -/
def reject (op : BitVec 4) (s : State) : State :=
  { s with status := { s.status with rej := true, rejOp := op } }

/-- A request that is neither SOFT_RESET nor ABORT: rejected while BUSY = 1, else accepted, after which the command's
own acceptance rule runs (R220). -/
def request (op : BitVec 4) (acceptance : State → State) (s : State) : State :=
  if busy s then reject op s else acceptance (accept op s)

/-- ACCEPT_ILLEGAL(w) without its ACCEPT (R225). -/
def illegalCommand (w : Word) (s : State) : State := raise .illegalCommand w 0 s

/-- END_BY_ABORT: what an Engine step does instead of its own work when ABORT_REQ = 1 (R230). -/
def endByAbort (s : State) : State :=
  let st := { s.status with abortReq := false }
  let st := match s.eng with
    | .idle => st
    | .lzw => st
    | .init => st
    | .compV => { st with canvasValid := false, framePending := false }
    | .compS => { st with canvasValid := false, framePending := false }
    | .compW => { st with canvasValid := false, framePending := false }
    | .disp => { st with canvasValid := false }
  raise .aborted 0 0 { s with status := st }

/-- {29'b0, FRAME_PENDING, IDX_VALID, CANVAS_VALID} = STATUS[18:16] (R241, SEQUENCE_ERROR). -/
def validityWord (s : State) : Word :=
  (0#29 ++ BitVec.ofBool s.status.framePending ++ BitVec.ofBool s.status.idxValid
    ++ BitVec.ofBool s.status.canvasValid : BitVec 32)

/-! The Engine's memory primitives (R76). -/

/-- InBit(p): bit p of the stream (R120). -/
def inBit (s : State) (p : Nat) : Bool := (inByte s (s.indexLatch.lbase.toNat + p / 8)).getLsbD (p % 8)

/-- IdxWrite(n, v). -/
def idxWrite (n : Nat) (v : Byte) (s : State) : State := { s with idxMem := s.idxMem.put n v }

/-- Colour(i): the active table's entry i. -/
def tableColour (s : State) (i : Nat) : Colour :=
  match s.frameLatch.tsel with
  | .globalTable => gctEntry s i
  | .localTable => lctEntry s i
  | .noTable => lctEntry s i

/-- The cell of pixel (x, y), y × CW + x (R53). -/
def cellOf (s : State) (x y : Nat) : Nat := y * s.canvasLatch.cw.toNat + x

/-- CANVAS[n] <- c. -/
def canvasPut (n : Nat) (c : Colour) (s : State) : State := { s with canvas := s.canvas.put n c }

/-- CanvasWrite(x, y, c). -/
def canvasWrite (x y : Nat) (c : Colour) (s : State) : State := canvasPut (cellOf s x y) c s

/-- The number of cells of the latched canvas, CW × CH. -/
def canvasArea (s : State) : Nat := s.canvasLatch.cw.toNat * s.canvasLatch.ch.toNat

/-- SnapCopy: SNAP[n] <- CANVAS[n] for every n < CW × CH. -/
def snapCopy (s : State) : State := { s with snap := s.snap.fillBelow (canvasArea s) (canvasCell s) }

/-- SnapRead(x, y). -/
def snapRead (s : State) (x y : Nat) : Colour := snapCell s (cellOf s x y)

/-! The BitReader (R120, R121). -/

/-- The bits that remain in the stream, 8 × LLEN − BIT_POS. -/
def bitsLeft (s : State) : Nat := 8 * s.indexLatch.llen.toNat - s.bitPos.toNat

/-- The code of WIDTH bits at BIT_POS, its bit i the stream bit BIT_POS + i. -/
def codeAtCursor (s : State) : Code :=
  BitVec.ofNat 12 (codeOfBits ((List.range s.lzw.width.toNat).map fun i => inBit s (s.bitPos.toNat + i)))

/-- The cursor past the code at it, and CODE_START at its first bit. -/
def advanceCursor (s : State) : State :=
  { s with
    lzw := { s.lzw with codeStart := s.bitPos }
    bitPos := s.bitPos + s.lzw.width.setWidth 32 }

/-- NEXTCODE: the next code and the state after reading it; none where fewer than WIDTH bits remain (R121). -/
def nextCode (s : State) : Option (Code × State) :=
  if bitsLeft s < s.lzw.width.toNat then none else some (codeAtCursor s, advanceCursor s)

/-- The error of R121. -/
def raiseExhausted (s : State) : State :=
  raise .bitstreamExhausted (BitVec.ofNat 32 (bitsLeft s)) s.bitPos s

/-! The code table (R55). -/

/-- The output length N = IDX_W × IDX_H of the LZW_DECODE. -/
def outLength (s : State) : Nat := s.indexLatch.idxW.toNat * s.indexLatch.idxH.toNat

/-- The part of the engine state that classifies a code (R97). -/
def codeCtx (s : State) : CodeCtx where
  m := s.indexLatch.lm.toNat
  nextFree := s.lzw.nextFree.toNat
  prevValid := s.lzw.prevValid

/-- INIT_TABLE (R132). -/
def initTable (s : State) : State :=
  let m := s.indexLatch.lm.toNat
  { s with
    table := s.table.fillBelow (2 ^ m) fun k => { prefixCode := none, suffixIdx := BitVec.ofNat 8 k }
    lzw := { s.lzw with
      width := BitVec.ofNat 4 (m + 1)
      nextFree := BitVec.ofNat 13 (2 ^ m + 2)
      prev := 0
      prevValid := false } }

/-- STR(k) along at most `fuel` slots (R55). PREFIX[k] < k (R56), so 4096 slots suffice (log 16). -/
def strChain (s : State) : Nat → Nat → List Byte
  | 0, _ => []
  | fuel + 1, k =>
    match (slotAt s k).prefixCode with
    | none => [(slotAt s k).suffixIdx]
    | some q => strChain s fuel q.toNat ++ [(slotAt s k).suffixIdx]

/-- STR(c), the string of a code's slot (R55). -/
def strOf (s : State) (c : Code) : List Byte := strChain s 4096 c.toNat

/-- The first index of a string; every string is non-empty (R56). -/
def firstOf (str : List Byte) : Byte := str.headD 0

/-- One index of EMIT: stored at PIX_COUNT while PIX_COUNT < N, else discarded (R142). -/
def emitIndex (v : Byte) (s : State) : State :=
  if s.pixCount.toNat < outLength s then
    { idxWrite s.pixCount.toNat v s with pixCount := s.pixCount + 1 }
  else s

/-- EMIT(s) (R142). -/
def emit : List Byte → State → State
  | [], s => s
  | v :: vs, s => emit vs (emitIndex v s)

/-- WIDTH after a slot is built: one more when NEXT_FREE has reached 2^WIDTH and WIDTH < 12 (R138). -/
def grownWidth (width : BitVec 4) (nextFree : Nat) : BitVec 4 :=
  if nextFree = 2 ^ width.toNat ∧ width.toNat < 12 then width + 1 else width

/-- ADD(q, k) (R138). -/
def addSlot (q : Code) (k : Byte) (s : State) : State :=
  let nf := s.lzw.nextFree.toNat
  if nf < 4096 then
    { s with
      table := s.table.put nf { prefixCode := some q, suffixIdx := k }
      lzw := { s.lzw with
        nextFree := s.lzw.nextFree + 1
        width := grownWidth s.lzw.width (nf + 1) } }
  else s

/-- PREV <- c ; PREV_VALID <- 1 (R135 to R137). -/
def setPrev (c : Code) (s : State) : State := { s with lzw := { s.lzw with prev := c, prevValid := true } }

/-- The last clause of LZW_STEP: when PIX_COUNT = N the operation finishes with IDX_VALID = 1 (R141, R144). -/
def finishIfComplete (s : State) : State :=
  if s.pixCount.toNat = outLength s then finish { s with status := { s.status with idxValid := true } } else s

end Sys2Proof.Machine
end

