-- ==== Sys2Proof/Machine/Operands.lean ====
section
/-! DEFINITION. The operands of the commands (R94): the fields of the configuration registers, the active table (R176),
and the places of a frame's pixels (R177, R181, R196). -/

namespace Sys2Proof.Machine

/-! Register fields (R28 to R37). -/

/-- CANVAS_SIZE.CW_CFG = [15:0] (R29). -/
def cwCfg (r : ConfigRegs) : BitVec 16 := r.canvasSize.extractLsb' 0 16

/-- CANVAS_SIZE.CH_CFG = [31:16] (R29). -/
def chCfg (r : ConfigRegs) : BitVec 16 := r.canvasSize.extractLsb' 16 16

/-- GCT_CFG.GCT_PRESENT = [0] (R31). -/
def gctPresent (r : ConfigRegs) : Bool := r.gctCfg.getLsbD 0

/-- The entries a size code stands for, 2^(code+1) (R99). -/
def entriesOf (code : BitVec 3) : Nat := 2 ^ (code.toNat + 1)

/-- The size of the global table, from GCT_SIZE_CODE = [3:1] (R31). -/
def gctSize (r : ConfigRegs) : Nat := entriesOf (r.gctCfg.extractLsb' 1 3)

/-- FRAME_POS.LEFT = [15:0] (R32). -/
def frameLeft (r : ConfigRegs) : BitVec 16 := r.framePos.extractLsb' 0 16

/-- FRAME_POS.TOP = [31:16] (R32). -/
def frameTop (r : ConfigRegs) : BitVec 16 := r.framePos.extractLsb' 16 16

/-- FRAME_SIZE.FW = [15:0] (R33). -/
def frameW (r : ConfigRegs) : BitVec 16 := r.frameSize.extractLsb' 0 16

/-- FRAME_SIZE.FH = [31:16] (R33). -/
def frameH (r : ConfigRegs) : BitVec 16 := r.frameSize.extractLsb' 16 16

/-- FRAME_FLAGS.INTERLACE = [0] (R34). -/
def interlaceFlag (r : ConfigRegs) : Bool := r.frameFlags.getLsbD 0

/-- FRAME_FLAGS.LCT_PRESENT = [1] (R34). -/
def lctPresent (r : ConfigRegs) : Bool := r.frameFlags.getLsbD 1

/-- The size of the local table, from LCT_SIZE_CODE = [4:2] (R34). -/
def lctSize (r : ConfigRegs) : Nat := entriesOf (r.frameFlags.extractLsb' 2 3)

/-- FRAME_FLAGS.TRANSP_EN = [5] (R34). -/
def transpEn (r : ConfigRegs) : Bool := r.frameFlags.getLsbD 5

/-- FRAME_FLAGS.DISPOSAL = [8:6] (R34). -/
def disposalOf (r : ConfigRegs) : BitVec 3 := r.frameFlags.extractLsb' 6 3

/-- A width and height a canvas may have: 1..MAX_DIM each, and no more pixels than the memory (R29, R33). -/
def sizeLegal (maxDim capacity w h : Nat) : Bool :=
  decide (w ≠ 0) && decide (h ≠ 0) && decide (w ≤ maxDim) && decide (h ≤ maxDim) && decide (w * h ≤ capacity)

/-- ACTIVE_TABLE (R176): the selection and the size. -/
def activeTable (r : ConfigRegs) : TableSel × Nat :=
  if lctPresent r then (.localTable, lctSize r)
  else if gctPresent r then (.globalTable, gctSize r)
  else (.noTable, 0)

/-! Where the pixels of a frame lie. -/

/-- The frame's pixel count N = FL_W × FL_H. -/
def frameArea (f : FrameLatch) : Nat := f.w.toNat * f.h.toNat

/-- ILROW(k, H), the frame row of stream row k (R181). -/
def ilrow (k h : Nat) : Nat :=
  let n1 := (h + 7) / 8
  let n2 := (h + 3) / 8
  let n3 := (h + 1) / 4
  if k < n1 then 8 * k
  else if k < n1 + n2 then 4 + 8 * (k - n1)
  else if k < n1 + n2 + n3 then 2 + 4 * (k - n1 - n2)
  else 1 + 2 * (k - n1 - n2 - n3)

/-- row(s) (R177). -/
def rowOf (f : FrameLatch) (s : Nat) : Nat :=
  let k := s / f.w.toNat
  if f.interlace then ilrow k f.h.toNat else k

/-- x(s) (R177). -/
def pixelX (f : FrameLatch) (s : Nat) : Nat := f.left.toNat + s % f.w.toNat

/-- y(s) (R177). -/
def pixelY (f : FrameLatch) (s : Nat) : Nat := f.top.toNat + rowOf f s

/-- inside(s) (R177, R183). -/
def inside (c : CanvasLatch) (f : FrameLatch) (s : Nat) : Bool :=
  decide (pixelX f s < c.cw.toNat) && decide (pixelY f s < c.ch.toNat)

/-- Whether an index is skipped: FL_TEN = 1 and v = FL_TIDX (R184). -/
def transparent (f : FrameLatch) (v : Byte) : Bool := f.ten && decide (v = f.tidx)

/-- Whether an index has an entry in the active table (R178). -/
def inTable (f : FrameLatch) (v : Byte) : Bool :=
  decide (f.tsel ≠ .noTable) && decide (v.toNat < f.tsize.toNat)

/-- The first column to the right of REGION (R196). -/
def regionRight (c : CanvasLatch) (f : FrameLatch) : Nat := min (f.left.toNat + f.w.toNat) c.cw.toNat

/-- The first row below REGION (R196). -/
def regionBottom (c : CanvasLatch) (f : FrameLatch) : Nat := min (f.top.toNat + f.h.toNat) c.ch.toNat

/-- (x, y) ∈ REGION (R196). -/
def inRegion (c : CanvasLatch) (f : FrameLatch) (x y : Nat) : Bool :=
  decide (f.left.toNat ≤ x) && decide (x < regionRight c f)
  && decide (f.top.toNat ≤ y) && decide (y < regionBottom c f)

/-- REGION is empty (R196). -/
def regionEmpty (c : CanvasLatch) (f : FrameLatch) : Bool :=
  decide (regionRight c f ≤ f.left.toNat) || decide (regionBottom c f ≤ f.top.toNat)

/-- The next position of REGION after (x, y) in raster order, if there is one (R193). -/
def nextInRegion (c : CanvasLatch) (f : FrameLatch) (x y : Nat) : Option (Nat × Nat) :=
  if x + 1 < regionRight c f then some (x + 1, y)
  else if y + 1 < regionBottom c f then some (f.left.toNat, y + 1)
  else none

end Sys2Proof.Machine
end

