-- ==== Sys2Proof/Machine/Flags.lean ====
section
/-! DEFINITION. The STATUS word (R26), its write-one-to-clear bits (R27), the interrupt line (R250), and every other
register of R23 as the Host reads and writes it. -/

namespace Sys2Proof.Machine

/-- The STATUS register as a word (R26). -/
def statusWord (s : State) : Word :=
  (0#7 ++ BitVec.ofBool s.status.rejMem ++ s.status.rejOp ++ BitVec.ofBool s.status.abortReq
    ++ BitVec.ofBool s.status.framePending ++ BitVec.ofBool s.status.idxValid ++ BitVec.ofBool s.status.canvasValid
    ++ s.status.errCode ++ s.status.lastOp ++ BitVec.ofBool s.status.rej ++ BitVec.ofBool s.status.err
    ++ BitVec.ofBool s.status.done ++ BitVec.ofBool (busy s) : BitVec 32)

/-- A Host write of `w` to STATUS (R27). -/
def statusW1C (w : Word) (st : Status) : Status :=
  { st with
    done := st.done && !w.getLsbD 1
    err := st.err && !w.getLsbD 2
    errCode := if w.getLsbD 2 then 0 else st.errCode
    rej := st.rej && !w.getLsbD 3
    rejMem := st.rejMem && !w.getLsbD 3
    rejOp := if w.getLsbD 3 then 0 else st.rejOp }

/-- The interrupt line (R250, log 21): IRQ_EN bits DONE_IE = [0], ERR_IE = [1], REJ_IE = [2] (R28). -/
def irq (s : State) : Bool :=
  (s.status.done && s.regs.irqEn.getLsbD 0)
  || (s.status.err && s.regs.irqEn.getLsbD 1)
  || (s.status.rej && s.regs.irqEn.getLsbD 2)

/-- The constant of ID (R24). -/
def idWord : Word := 0x4C5A5731

/-- LZW_STATE (R40). -/
def lzwStateWord (s : State) : Word :=
  (0#2 ++ BitVec.ofBool s.lzw.prevValid ++ (if s.lzw.prevValid then s.lzw.prev else 0#12) ++ s.lzw.nextFree
    ++ s.lzw.width : BitVec 32)

/-- The value of FL_TSEL (R45, R101). -/
def tselBits : TableSel → BitVec 2
  | .noTable => 0
  | .globalTable => 1
  | .localTable => 2

/-- FL_FLAGS (R45). -/
def flFlagsWord (f : FrameLatch) : Word :=
  (0#7 ++ f.tsize ++ f.tidx ++ 0#1 ++ f.disp ++ tselBits f.tsel ++ BitVec.ofBool f.ten
    ++ BitVec.ofBool f.interlace : BitVec 32)

/-- The register at an offset, as the Host reads it (R22, R23); a reserved offset reads 0. -/
def regRead (off : Nat) (s : State) : Word :=
  match off with
  | 0x000 => idWord
  | 0x004 => 0
  | 0x008 => statusWord s
  | 0x00C => s.regs.irqEn.setWidth 32
  | 0x010 => s.regs.canvasSize
  | 0x014 => s.regs.bgIndex.setWidth 32
  | 0x018 => s.regs.gctCfg.setWidth 32
  | 0x01C => s.regs.framePos
  | 0x020 => s.regs.frameSize
  | 0x024 => s.regs.frameFlags.setWidth 32
  | 0x028 => s.regs.transpIndex.setWidth 32
  | 0x02C => s.regs.lzwMin.setWidth 32
  | 0x030 => s.regs.inBase
  | 0x034 => s.regs.inLen
  | 0x038 => s.errInfo0
  | 0x03C => s.errInfo1
  | 0x040 => lzwStateWord s
  | 0x044 => s.bitPos
  | 0x048 => s.pixCount
  | 0x04C => (s.canvasLatch.ch ++ s.canvasLatch.cw : BitVec 32)
  | 0x050 => s.canvasLatch.bgRgb.setWidth 32
  | 0x054 => (s.indexLatch.idxH ++ s.indexLatch.idxW : BitVec 32)
  | 0x058 => (s.frameLatch.top ++ s.frameLatch.left : BitVec 32)
  | 0x05C => (s.frameLatch.h ++ s.frameLatch.w : BitVec 32)
  | 0x060 => flFlagsWord s.frameLatch
  | 0x064 => s.progress
  | _ => 0

/-- The read-write registers after a Host write of `w` at an offset: the listed bits are stored exactly as written;
a write to any other offset stores nothing (R22, R23). -/
def configWrite (off : Nat) (w : Word) (r : ConfigRegs) : ConfigRegs :=
  match off with
  | 0x00C => { r with irqEn := w.setWidth 3 }
  | 0x010 => { r with canvasSize := w }
  | 0x014 => { r with bgIndex := w.setWidth 8 }
  | 0x018 => { r with gctCfg := w.setWidth 4 }
  | 0x01C => { r with framePos := w }
  | 0x020 => { r with frameSize := w }
  | 0x024 => { r with frameFlags := w.setWidth 9 }
  | 0x028 => { r with transpIndex := w.setWidth 8 }
  | 0x02C => { r with lzwMin := w.setWidth 4 }
  | 0x030 => { r with inBase := w }
  | 0x034 => { r with inLen := w }
  | _ => r

end Sys2Proof.Machine
end

