-- ==== Sys2Proof/Machine/Compositor.lean ====
section
/-! DEFINITION. CANVAS_INIT (R171), COMPOSE (R175) and DISPOSE (R190), and the Engine steps they run (R172, R178, R180,
R182, R193). -/

namespace Sys2Proof.Machine

/-- What CANVAS_INIT does before its checks (R171). -/
def beginCanvasInit (s : State) : State :=
  { s with status := { s.status with canvasValid := false, framePending := false }, progress := 0 }

/-- What CANVAS_INIT latches once its checks have passed (R171, R173). Latching a canvas draws anew what the cells
beyond it read as (log 5). -/
def latchCanvas (s : State) : State :=
  { s with
    canvasLatch := { cw := cwCfg s.regs, ch := chCfg s.regs, bgRgb := gctEntry s s.regs.bgIndex.toNat }
    work := { s.work with n := 0 }
    canvasDraw := s.draws
    draws := s.draws + 1
    eng := .init }

/-- CANVAS_INIT's acceptance rule after ACCEPT (R171). -/
def acceptCanvasInit (s : State) : State :=
  if sizeLegal s.params.maxDim s.params.canvasPixels (cwCfg s.regs).toNat (chCfg s.regs).toNat = false then
    raise .invalidResolution s.regs.canvasSize 0 (beginCanvasInit s)
  else if gctPresent s.regs = false ∨ gctSize s.regs ≤ s.regs.bgIndex.toNat then
    raise .invalidImage 0xFFFFFFFF (s.regs.bgIndex.setWidth 32) (beginCanvasInit s)
  else latchCanvas (beginCanvasInit s)

/-- CANVAS_INIT (R171): rejected while busy (R221). -/
def execCanvasInit (s : State) : Host.Outcome State Fault Refusal := .next (request 0x2 acceptCanvasInit s)

/-- One cell of INIT_STEP: CANVAS[n] <- BG_RGB, n and PROGRESS one further (R172). -/
def fillCell (s : State) : State :=
  { s with
    canvas := s.canvas.put s.work.n s.canvasLatch.bgRgb
    work := { s.work with n := s.work.n + 1 }
    progress := s.progress + 1 }

/-- INIT_STEP after its abort test (R172). -/
def initStep (s : State) : State :=
  if s.work.n + 1 = canvasArea s then
    finish { fillCell s with status := { s.status with canvasValid := true } }
  else fillCell s

/-- What COMPOSE latches once its checks have passed (R175). -/
def latchFrame (s : State) : State :=
  { s with
    frameLatch := {
      left := frameLeft s.regs
      top := frameTop s.regs
      w := s.indexLatch.idxW
      h := s.indexLatch.idxH
      interlace := interlaceFlag s.regs
      ten := transpEn s.regs
      tsel := (activeTable s.regs).1
      disp := disposalOf s.regs
      tidx := s.regs.transpIndex
      tsize := BitVec.ofNat 9 (activeTable s.regs).2 }
    progress := 0
    work := { s.work with s := 0 }
    eng := .compV }

/-- COMPOSE's acceptance rule after ACCEPT (R175). -/
def acceptCompose (s : State) : State :=
  if s.status.canvasValid = false ∨ s.status.idxValid = false ∨ s.status.framePending = true then
    raise .sequenceError (validityWord s) 0x4 s
  else if 3 < (disposalOf s.regs).toNat then
    raise .invalidDisposal ((disposalOf s.regs).setWidth 32) 0 s
  else latchFrame s

/-- COMPOSE (R175): rejected while busy (R221). -/
def execCompose (s : State) : Host.Outcome State Fault Refusal := .next (request 0x4 acceptCompose s)

/-- s and PROGRESS one further (R178, R182). -/
def countIndex (s : State) : State :=
  { s with work := { s.work with s := s.work.s + 1 }, progress := s.progress + 1 }

/-- COMP_V_STEP after its abort test (R178). -/
def compVStep (s : State) : State :=
  if inTable s.frameLatch (idxByte s s.work.s) = false then
    raise .invalidImage (BitVec.ofNat 32 s.work.s) ((idxByte s s.work.s).setWidth 32) s
  else if s.work.s + 1 = frameArea s.frameLatch then { countIndex s with eng := .compS }
  else countIndex s

/-- COMP_S_STEP after its abort test (R180). -/
def compSStep (s : State) : State :=
  { snapCopy s with work := { s.work with s := 0 }, eng := .compW }

/-- The write of one stream index, if it is neither transparent nor off the canvas (R182 to R184). -/
def writePixel (s : State) : State :=
  let v := idxByte s s.work.s
  if transparent s.frameLatch v then s
  else if inside s.canvasLatch s.frameLatch s.work.s then
    canvasWrite (pixelX s.frameLatch s.work.s) (pixelY s.frameLatch s.work.s) (tableColour s v.toNat) s
  else s

/-- COMP_W_STEP after its abort test (R182). -/
def compWStep (s : State) : State :=
  if s.work.s + 1 = frameArea s.frameLatch then
    finish { countIndex (writePixel s) with status := { s.status with framePending := true } }
  else countIndex (writePixel s)

/-- What DISPOSE does once its check has passed (R190). -/
def beginDispose (s : State) : State :=
  { s with status := { s.status with framePending := false }, progress := 0 }

/-- The walk over REGION begins at its first position (R190). -/
def beginRegion (s : State) : State :=
  { s with work := { s.work with x := s.frameLatch.left.toNat, y := s.frameLatch.top.toNat }, eng := .disp }

/-- DISPOSE's acceptance rule after ACCEPT (R190 to R192, R196). -/
def acceptDispose (s : State) : State :=
  if s.status.framePending = false ∨ s.status.canvasValid = false then raise .sequenceError (validityWord s) 0x5 s
  else if s.frameLatch.disp.toNat ≤ 1 ∨ regionEmpty s.canvasLatch s.frameLatch = true then finish (beginDispose s)
  else beginRegion (beginDispose s)

/-- DISPOSE (R190): rejected while busy (R221). -/
def execDispose (s : State) : Host.Outcome State Fault Refusal := .next (request 0x5 acceptDispose s)

/-- The restore of one cell of REGION (R193, R194). -/
def restorePixel (s : State) : State :=
  if s.frameLatch.disp = 2 then canvasWrite s.work.x s.work.y s.canvasLatch.bgRgb s
  else if s.frameLatch.disp = 3 then canvasWrite s.work.x s.work.y (snapRead s s.work.x s.work.y) s
  else s

/-- DISP_STEP after its abort test (R193). -/
def dispStep (s : State) : State :=
  let s1 := { restorePixel s with progress := s.progress + 1 }
  match nextInRegion s.canvasLatch s.frameLatch s.work.x s.work.y with
  | some p => { s1 with work := { s.work with x := p.1, y := p.2 } }
  | none => finish s1

end Sys2Proof.Machine
end

