-- ==== Sys2Proof/Machine/Control.lean ====
section
/-! DEFINITION. SOFT_RESET (R227), ABORT (R229), the reserved and illegal words (R93, R225), and a hardware reset
(R271). -/

namespace Sys2Proof.Machine

/-- SOFT_RESET (R227, R270): everything at its reset value but IN_MEM, GCT and LCT, which are kept; IDX_MEM, CANVAS,
SNAP and the code table become unspecified (log 6). -/
def softReset (s : State) : State :=
  { State.reset with
    params := s.params
    inMem := s.inMem
    gct := s.gct
    lct := s.lct
    idxMem := Store.unspecified Byte s.draws
    canvas := Store.unspecified Colour s.draws
    snap := Store.unspecified Colour s.draws
    table := Store.unspecified Slot s.draws
    canvasDraw := s.draws
    draws := s.draws + 1
    host := s.host }

/-- A hardware reset: as SOFT_RESET, and IN_MEM, GCT and LCT become unspecified too (R271, log 7). -/
def hardwareReset (s : State) : State :=
  { softReset s with
    inMem := Store.unspecified Byte s.draws
    gct := Store.unspecified Colour s.draws
    lct := Store.unspecified Colour s.draws }

/-- SOFT_RESET, in every state (R220, R227). -/
def execSoftReset (s : State) : Host.Outcome State Fault Refusal := .next (softReset s)

/-- ABORT, in every state: ABORT_REQ <- 1 while BUSY = 1, else no effect (R229). -/
def execAbort (s : State) : Host.Outcome State Fault Refusal :=
  .next (if busy s then { s with status := { s.status with abortReq := true } } else s)

/-- OP 0x0 (R93, R221, R225). -/
def execIllegalOp0 (s : State) : Host.Outcome State Fault Refusal :=
  .next (request 0x0 (illegalCommand (cmdWord 0x0)) s)

/-- OP 0x7 (R93, R221, R225). -/
def execIllegalOp7 (s : State) : Host.Outcome State Fault Refusal :=
  .next (request 0x7 (illegalCommand (cmdWord 0x7)) s)

/-- OP 0x8..0xF (R93, R221, R225). -/
def execIllegalOp8F (low : BitVec 3) (s : State) : Host.Outcome State Fault Refusal :=
  let op := (1#1 ++ low : BitVec 4)
  .next (request op (illegalCommand (cmdWord op)) s)

/-- RSVD ≠ 0 (R93, R221, R225): the word is {RSVD, OP}. -/
def execIllegalRsvd (op : BitVec 4) (rsvd : BitVec 28) (s : State) : Host.Outcome State Fault Refusal :=
  .next (request op (illegalCommand (rsvd ++ op : BitVec 32)) s)

end Sys2Proof.Machine
end

