-- ==== Sys2Proof/Machine/Lzw.lean ====
section
/-! DEFINITION. LZW_DECODE (R130, R131) and the six code classes (R133 to R140). A code class runs on the state NEXTCODE
leaves (R141), and ends with the test of R144. -/

namespace Sys2Proof.Machine

/-- What LZW_DECODE does before its checks (R130). -/
def beginLzw (s : State) : State :=
  { s with status := { s.status with idxValid := false }, bitPos := 0, pixCount := 0 }

/-- What LZW_DECODE latches once its checks have passed (R130). -/
def latchStream (s : State) : State :=
  { s with
    indexLatch := {
      idxW := frameW s.regs
      idxH := frameH s.regs
      lm := s.regs.lzwMin
      lbase := s.regs.inBase
      llen := s.regs.inLen } }

/-- LZW_DECODE's acceptance rule after ACCEPT (R130). -/
def acceptLzw (s : State) : State :=
  if sizeLegal s.params.maxDim s.params.idxMemBytes (frameW s.regs).toNat (frameH s.regs).toNat = false then
    raise .invalidResolution s.regs.frameSize 1 (beginLzw s)
  else if legalMinCode s.regs.lzwMin.toNat = false then
    raise .invalidCodeSize (s.regs.lzwMin.setWidth 32) 0 (beginLzw s)
  else if s.params.inMemBytes < s.regs.inBase.toNat + s.regs.inLen.toNat then
    raise .inputRange s.regs.inBase s.regs.inLen (beginLzw s)
  else { initTable (latchStream (beginLzw s)) with eng := .lzw }

/-- LZW_DECODE (R130): rejected while busy (R221). -/
def execLzwDecode (s : State) : Host.Outcome State Fault Refusal := .next (request 0x3 acceptLzw s)

/-- CLEAR (R133). -/
def execLzwClear (_c : Code) (s : State) : Host.Outcome State Fault Refusal :=
  .next (finishIfComplete (initTable s))

/-- END (R134). -/
def execLzwEnd (_c : Code) (s : State) : Host.Outcome State Fault Refusal :=
  .next (raise .shortPixelData s.pixCount s.lzw.codeStart s)

/-- FIRST (R135): the string of a root is the code itself. -/
def execLzwFirst (c : Code) (s : State) : Host.Outcome State Fault Refusal :=
  .next (finishIfComplete (setPrev c (emit [c.setWidth 8] s)))

/-- HIT (R136). -/
def execLzwHit (c : Code) (s : State) : Host.Outcome State Fault Refusal :=
  let str := strOf s c
  .next (finishIfComplete (setPrev c (addSlot s.lzw.prev (firstOf str) (emit str s))))

/-- KWKWK (R137). -/
def execLzwKwkwk (c : Code) (s : State) : Host.Outcome State Fault Refusal :=
  let p := strOf s s.lzw.prev
  .next (finishIfComplete (setPrev c (addSlot s.lzw.prev (firstOf p) (emit (p ++ [firstOf p]) s))))

/-- INVALID (R140). -/
def execLzwInvalid (c : Code) (s : State) : Host.Outcome State Fault Refusal :=
  .next (raise .invalidLzwCode (c.setWidth 32) s.lzw.codeStart s)

end Sys2Proof.Machine
end

