-- ==== Sys2Proof/Machine/Dispatch.lean ====
section
/-! DEFINITION. The meaning of every instruction: the ten CMD rows (R220), then the six code classes, which run on the
state NEXTCODE leaves (R141). -/

namespace Sys2Proof.Machine

def exec (i : Instr) (s : State) : Host.Outcome State Fault Refusal :=
  match i with
  | .softReset => Sys2Proof.Machine.execSoftReset s
  | .canvasInit => Sys2Proof.Machine.execCanvasInit s
  | .lzwDecode => Sys2Proof.Machine.execLzwDecode s
  | .compose => Sys2Proof.Machine.execCompose s
  | .dispose => Sys2Proof.Machine.execDispose s
  | .abort => Sys2Proof.Machine.execAbort s
  | .illegalOp0 => Sys2Proof.Machine.execIllegalOp0 s
  | .illegalOp7 => Sys2Proof.Machine.execIllegalOp7 s
  | .illegalOp8F low => Sys2Proof.Machine.execIllegalOp8F low s
  | .illegalRsvd op rsvd => Sys2Proof.Machine.execIllegalRsvd op rsvd s
  | .lzwClear c => Sys2Proof.Machine.execLzwClear c s
  | .lzwEnd c => Sys2Proof.Machine.execLzwEnd c s
  | .lzwFirst c => Sys2Proof.Machine.execLzwFirst c s
  | .lzwHit c => Sys2Proof.Machine.execLzwHit c s
  | .lzwKwkwk c => Sys2Proof.Machine.execLzwKwkwk c s
  | .lzwInvalid c => Sys2Proof.Machine.execLzwInvalid c s

end Sys2Proof.Machine
end

