-- ==== Sys2Proof/Machine/Bus.lean ====
section
/-! DEFINITION. Host accesses: the address map (R60 to R63), the windows (R65 to R67), accesses while an operation runs
(R69, R70), and the registers (R22, R23). A bus error is a fault of the step (R63, log 8). -/

namespace Sys2Proof.Machine

/-- A word from four bytes, the first in bits 7:0 (R65). -/
def leWord (b0 b1 b2 b3 : Byte) : Word := (b3 ++ b2 ++ b1 ++ b0 : BitVec 32)

/-- Byte i of a word (R65). -/
def wordByte (w : Word) (i : Nat) : Byte := w.extractLsb' (8 * i) 8

/-- A byte of a window's word; a byte beyond the capacity reads 0 (R62, U11). -/
def windowByte (capacity : Nat) (mem : Nat → Byte) (a : Nat) : Byte := if a < capacity then mem a else 0

/-- The word of an IN_MEM or IDX_MEM window at byte a of the memory (R65). -/
def windowWord (capacity : Nat) (mem : Nat → Byte) (a : Nat) : Word :=
  leWord (windowByte capacity mem a) (windowByte capacity mem (a + 1)) (windowByte capacity mem (a + 2))
    (windowByte capacity mem (a + 3))

/-- A window word stored byte by byte; bytes beyond the capacity are ignored (R62, R65, U11). -/
def putWindowWord (capacity a : Nat) (w : Word) (m : Store Byte) : Store Byte :=
  (List.range 4).foldl (fun m i => if a + i < capacity then m.put (a + i) (wordByte w i) else m) m

/-- Whether the Engine is writing the canvas, so that a Host read of it is unspecified (R69). -/
def canvasInUse (e : EngState) : Bool :=
  match e with
  | .idle => false
  | .lzw => false
  | .init => true
  | .compV => true
  | .compS => true
  | .compW => true
  | .disp => true

/-- A read completes with a word (R68, log 18). -/
def respond (w : Word) (s : State) : State := { s with host := { s.host with response := some w } }

/-- A read completes with a free value, drawn for this read (R69, log 4). -/
def respondFresh (f : Word → Word) (s : State) : State :=
  respond (f (Config.freshWord s.draws)) { s with draws := s.draws + 1 }

/-- A colour as a word, {8'h00, R, G, B} (R66, R67). -/
def colourWord (c : Colour) : Word := c.setWidth 32

/-- CANVAS cell n as the Host reads it while the Engine is not writing the canvas: below CW × CH the cell, else a free
value that stays (R67, U7, log 5). -/
def canvasView (s : State) (n : Nat) : Colour :=
  if n < canvasArea s then canvasCell s n else Config.beyondCanvas s.canvasDraw n

/-- What an offset of the map names (R62): a register, an entry of a colour table, a byte of IN_MEM or IDX_MEM, a cell
of CANVAS. -/
inductive Place where
  | register (off : Nat)
  | gct (i : Nat)
  | lct (i : Nat)
  | inMem (a : Nat)
  | idxMem (a : Nat)
  | canvas (n : Nat)
  deriving DecidableEq, Repr

/-- A place of a memory, if it is below the capacity (R62). -/
def within (capacity i : Nat) (place : Place) : Except Fault Place :=
  if i < capacity then .ok place else .error .busBeyondCapacity

/-- The address map (R62): the place an aligned offset names, or the bus error. -/
def locate (p : Params) (off : Nat) : Except Fault Place :=
  if off < 0x100 then .ok (.register off)
  else if off < 0x1000 then .error .busUnmapped
  else if off < 0x1400 then .ok (.gct ((off - 0x1000) / 4))
  else if off < 0x1800 then .ok (.lct ((off - 0x1400) / 4))
  else if off < 0x01000000 then .error .busUnmapped
  else if off < 0x02000000 then within p.inMemBytes (off - 0x01000000) (.inMem (off - 0x01000000))
  else if off < 0x10000000 then within p.idxMemBytes (off - 0x02000000) (.idxMem (off - 0x02000000))
  else if off < 0x30000000 then
    within p.canvasPixels ((off - 0x10000000) / 4) (.canvas ((off - 0x10000000) / 4))
  else .error .busUnmapped

/-- The state after a Host read of a place (R22, R65 to R69). -/
def readPlace (place : Place) (s : State) : State :=
  match place with
  | .register off => respond (regRead off s) s
  | .gct i => respond (colourWord (gctEntry s i)) s
  | .lct i => respond (colourWord (lctEntry s i)) s
  | .inMem a => respond (windowWord s.params.inMemBytes (inByte s) a) s
  | .idxMem a =>
    if s.eng = .lzw then respondFresh id s else respond (windowWord s.params.idxMemBytes (idxByte s) a) s
  | .canvas n =>
    if canvasInUse s.eng then respondFresh (fun w => colourWord (w.setWidth 24)) s
    else respond (colourWord (canvasView s n)) s

/-- An aligned word read at an offset. -/
def readOffset (off : Nat) (s : State) : Host.Outcome State Fault Refusal :=
  match locate s.params off with
  | .error f => .fault f
  | .ok place => .next (readPlace place s)

/-- A Host write to the GCT, LCT or IN_MEM window: dropped while BUSY = 1, with REJ and REJ_MEM set (R70). -/
def windowWrite (store : State → State) (s : State) : State :=
  if busy s then { s with status := { s.status with rej := true, rejMem := true } } else store s

/-- A write of a register: CMD is a command request (R220), STATUS is write-one-to-clear (R27), the read-write
registers store (R22). -/
def registerWrite (off : Nat) (w : Word) (s : State) : Host.Outcome State Fault Refusal :=
  if off = 0x004 then exec (decodeCmd w) s
  else if off = 0x008 then .next { s with status := statusW1C w s.status }
  else .next { s with regs := configWrite off w s.regs }

/-- A Host write of a word to a place (R22, R65, R66); the IDX_MEM and CANVAS windows are read-only (R62). -/
def writePlace (place : Place) (w : Word) (s : State) : Host.Outcome State Fault Refusal :=
  match place with
  | .register off => registerWrite off w s
  | .gct i => .next (windowWrite (fun s => { s with gct := s.gct.put i (w.setWidth 24) }) s)
  | .lct i => .next (windowWrite (fun s => { s with lct := s.lct.put i (w.setWidth 24) }) s)
  | .inMem a => .next (windowWrite (fun s => { s with inMem := putWindowWord s.params.inMemBytes a w s.inMem }) s)
  | .idxMem _ => .fault .busReadOnlyWindow
  | .canvas _ => .fault .busReadOnlyWindow

/-- An aligned word write at an offset. -/
def writeOffset (off : Nat) (w : Word) (s : State) : Host.Outcome State Fault Refusal :=
  match locate s.params off with
  | .error f => .fault f
  | .ok place => writePlace place w s

/-- The offset of a bus address that is an aligned word of the block, else the bus error (R60, R61). -/
def decodeAddress (p : Params) (addr bytes : Nat) : Except Fault Nat :=
  if bytes ≠ 4 then .error .busWidth
  else if addr < p.base ∨ p.base + 2 ^ 30 ≤ addr then .error .busOutsideBlock
  else if (addr - p.base) % 4 ≠ 0 then .error .busMisaligned
  else .ok (addr - p.base)

/-- MemRead (R61). -/
def hostRead (addr bytes : Nat) (s : State) : Host.Outcome State Fault Refusal :=
  match decodeAddress s.params addr bytes with
  | .error f => .fault f
  | .ok off => readOffset off s

/-- MemWrite (R61); partial byte enables are a bus error. -/
def hostWrite (addr bytes : Nat) (enables : BitVec 4) (w : Word) (s : State) : Host.Outcome State Fault Refusal :=
  match decodeAddress s.params addr bytes with
  | .error f => .fault f
  | .ok off => if enables = 0xF then writeOffset off w s else .fault .busWidth

end Sys2Proof.Machine
end

