-- ==== Sys2Proof/Machine/Engine.lean ====
section
/-! DEFINITION. One Engine step, selected by ENG_STATE (R226). Every step first tests ABORT_REQ (R230). -/

namespace Sys2Proof.Machine

/-- LZW_STEP after its abort test (R141): NEXTCODE fetches a code, its class is decoded in the engine state that read
it, and the class runs. -/
def lzwStep (s : State) : Host.Outcome State Fault Refusal :=
  match nextCode s with
  | none => .next (raiseExhausted s)
  | some (c, s1) => exec (decodeCode (codeCtx s1) c) s1

/-- The step of R226; while ENG_STATE = IDLE the Engine takes none. -/
def engineStep (s : State) : Host.Outcome State Fault Refusal :=
  if busy s && s.status.abortReq then .next (endByAbort s)
  else match s.eng with
    | .idle => .next s
    | .init => .next (initStep s)
    | .lzw => lzwStep s
    | .compV => .next (compVStep s)
    | .compS => .next (compSStep s)
    | .compW => .next (compWStep s)
    | .disp => .next (dispStep s)

end Sys2Proof.Machine
end

