-- ==== Sys2Proof/Machine/HostProgram.lean ====
section
/-! DEFINITION. The Host's side: its program notation and pseudo-instructions (R103, R104), the session program (R275),
the caller kinds (R243), and what one event of the schedule does (R4, R71). -/

namespace Sys2Proof.Machine

/-- The caller kind of an error (R243). -/
def callerKind : ErrorCode → CallerKind
  | .bitstreamExhausted => .bufferingFailed
  | .invalidLzwCode => .invalidGifImage
  | .shortPixelData => .invalidGifImage
  | .invalidImage => .invalidGifImage
  | .invalidCodeSize => .invalidGifImage
  | .invalidDisposal => .invalidGifImage
  | .invalidResolution => .invalidResolution
  | .inputRange => .invalidArgs
  | .sequenceError => .invalidArgs
  | .illegalCommand => .invalidArgs
  | .aborted => .timedOut

/-- The error a value of ERR_CODE names (R240); 0x00 and 0x0C..0xFF name none. -/
def errorOfByte (b : Byte) : Option ErrorCode :=
  [.bitstreamExhausted, .invalidLzwCode, .shortPixelData, .invalidImage, .invalidResolution, .invalidCodeSize,
    .inputRange, .invalidDisposal, .sequenceError, .illegalCommand, .aborted].find? fun e => decide (errorByte e = b)

/-- The caller kind a Host reads from a STATUS word (R243): that of the error if ERR = 1. DESIGN CHOICE: the error goes
before REJ (log 20), and with ERR = 0 every REJ = 1 counts as the Host's own rejected request, whatever set it and
whenever (log 25). -/
def callerKindOfStatus (w : Word) : Option CallerKind :=
  if w.getLsbD 2 then (errorOfByte (w.extractLsb' 8 8)).map callerKind
  else if w.getLsbD 3 then some .alreadyProcessing
  else none

/-! The program notation (R103). -/

/-- `WR off, value`. -/
def wr (base off : Nat) (w : Word) : Event := .write (base + off) 4 0xF w

/-- `RD off`. -/
def rd (base off : Nat) : Event := .read (base + off) 4

/-- `CMD mnemonic`; a code class is no command. -/
def cmd (base : Nat) (i : Instr) : List Event :=
  match encode i with
  | .cmd w => [wr base 0x004 w]
  | .code _ => []

/-- `LOADB o, b0 b1 …`: words of four bytes, missing bytes 0x00 (R104). -/
def loadB (base o : Nat) (bytes : List Byte) : List Event :=
  (List.range ((bytes.length + 3) / 4)).map fun k =>
    wr base (0x01000000 + o + 4 * k)
      (leWord (bytes.getD (4 * k) 0) (bytes.getD (4 * k + 1) 0) (bytes.getD (4 * k + 2) 0) (bytes.getD (4 * k + 3) 0))

/-- `LOADCT T, i, c0 c1 …`, with the window's offset: 0x1000 of GCT, 0x1400 of LCT (R104). -/
def loadCT (base window : Nat) (i : Nat) : List Colour → List Event
  | [] => []
  | c :: cs => wr base (window + 4 * i) (colourWord c) :: loadCT base window (i + 1) cs

/-- What the Host knows of an image: its global table and the words of GCT_CFG, CANVAS_SIZE, BG_INDEX (R275). -/
structure ImageInput where
  globalColours : List Colour
  gctCfg : Word
  canvasSize : Word
  bgIndex : Word
  deriving DecidableEq, Repr

/-- What the Host knows of one frame (R275). -/
structure FrameInput where
  offset : Nat
  stream : List Byte
  localColours : List Colour
  frameSize : Word
  lzwMin : Word
  framePos : Word
  frameFlags : Word
  transpIndex : Word
  deriving DecidableEq, Repr

/-- The part of the session program that runs once per image (R275). -/
def imageProgram (base : Nat) (im : ImageInput) : List Event :=
  loadCT base 0x1000 0 im.globalColours
  ++ [wr base 0x018 im.gctCfg, wr base 0x010 im.canvasSize, wr base 0x014 im.bgIndex]
  ++ cmd base .canvasInit ++ [.wait, .stopOnError]

/-- The part that runs once per image descriptor; `cells` is CW × CH (R275). -/
def frameProgram (base cells : Nat) (fr : FrameInput) : List Event :=
  loadB base fr.offset fr.stream ++ loadCT base 0x1400 0 fr.localColours
  ++ [wr base 0x020 fr.frameSize, wr base 0x02C fr.lzwMin, wr base 0x030 (BitVec.ofNat 32 fr.offset),
      wr base 0x034 (BitVec.ofNat 32 fr.stream.length)]
  ++ cmd base .lzwDecode ++ [.wait, .stopOnError]
  ++ [wr base 0x01C fr.framePos, wr base 0x024 fr.frameFlags, wr base 0x028 fr.transpIndex]
  ++ cmd base .compose ++ [.wait, .stopOnError]
  ++ (List.range cells).map (fun n => rd base (0x10000000 + 4 * n))
  ++ cmd base .dispose ++ [.wait, .stopOnError]

/-- The session program (R275). -/
def sessionProgram (base cells : Nat) (im : ImageInput) (frames : List FrameInput) : List Event :=
  imageProgram base im ++ frames.flatMap (frameProgram base cells)

/-! One event. -/

/-- One poll of WAIT: RD STATUS; while the word read has BUSY = 1 the wait goes on, and the Engine takes a step before
the next poll (R104, R233, log 19). -/
def pollWait (s : State) : State :=
  let w := statusWord s
  let s1 := respond w s
  if w.getLsbD 0 then { s1 with host := { s1.host with events := .engineStep :: .wait :: s1.host.events } } else s1

/-- The Host reads STATUS and stops with the mapped error if ERR = 1 (R275). -/
def checkError (s : State) : State :=
  let w := statusWord s
  let s1 := respond w s
  if w.getLsbD 2 then { s1 with host := { s1.host with events := [], verdict := callerKindOfStatus w } } else s1

/-- What one event does (R4). -/
def runEvent (e : Event) (s : State) : Host.Outcome State Fault Refusal :=
  match e with
  | .engineStep => engineStep s
  | .read addr bytes => hostRead addr bytes s
  | .write addr bytes enables data => hostWrite addr bytes enables data s
  | .wait => .next (pollWait s)
  | .stopOnError => .next (checkError s)
  | .hardwareReset => .next (hardwareReset s)

/-- The state without its first event. -/
def dropEvent (s : State) : State := { s with host := { s.host with events := s.host.events.tail } }

/-- The state with an event put before all others. -/
def pushEvent (e : Event) (s : State) : State := { s with host := { s.host with events := e :: s.host.events } }

/-! The presentation of one table row's word (log 17). -/

/-- A CMD word is the Host's next access: `WR CMD, w`. -/
def presentWord (w : Nat) (s : State) : State := pushEvent (wr s.params.base 0x004 (BitVec.ofNat 32 w)) s

/-- A code is the next one of an accepted LZW_DECODE of a 4 × 1 frame with M = 8 and WIDTH 12, in the engine state
`benchCtx` (R130, R132), and the Engine steps next. -/
def presentCode (c : Nat) (s : State) : State :=
  let s1 := accept 0x3 s
  let s2 := initTable { s1 with
    status := { s1.status with idxValid := false, abortReq := false }
    indexLatch := { idxW := 4, idxH := 1, lm := 8, lbase := 0, llen := 2 }
    bitPos := 0
    pixCount := 0
    inMem := (s1.inMem.put 0 (BitVec.ofNat 8 c)).put 1 (BitVec.ofNat 8 (c / 256)) }
  pushEvent .engineStep
    { s2 with
      lzw := { s2.lzw with width := 12, prevValid := (benchCtx c).prevValid }
      eng := .lzw }

end Sys2Proof.Machine
end

