-- ==== Sys2Proof/Machine/Step.lean ====
section
/-! DEFINITION. One step of the run (R4, R71): the next event happens; when none is pending the Engine steps on (R233,
log 2). -/

namespace Sys2Proof.Machine

/-- The step. -/
def step (s : State) : Host.Outcome State Fault Refusal :=
  match s.host.events with
  | [] => engineStep s
  | e :: _ => runEvent e (dropEvent s)

/-- The state in which the very next step runs the instruction of a table row's word (log 17): more than 16 bits are a
word written to CMD, else a code of the LZW stream. -/
def State.withFetchWord (s : State) (nbits w : Nat) : State :=
  if 16 < nbits then presentWord w s else presentCode w s

end Sys2Proof.Machine
end

