-- ==== Sys2Proof/Safety.lean ====
section
/-! DEFINITION. What holds of every state a run reaches, in the terms claims use: the status bits (R26, R48, R49, R231),
the bounds of every access (R77), the code table and the width schedule (R56, R98, R122), the counters of the
compositor (R46, R47), and what of the state an operation can depend on (R74). -/

namespace Sys2Proof.Machine

/-- STATUS and ENG_STATE: at most one of BUSY, DONE, ERR (R26); ERR_CODE is 0 without an error and a code of R240 with
one; ABORT_REQ implies BUSY (R231); REJ_MEM and REJ_OP are 0 while REJ is (R27); the validity flags during each
operation (R48, R230); LAST_OP is the running command's (R26). -/
structure ControlInv (s : State) : Prop where
  busy_excludes : busy s = true → s.status.done = false ∧ s.status.err = false
  done_excludes : s.status.done = true → s.status.err = false
  no_error_code : s.status.err = false → s.status.errCode = 0
  error_code : s.status.err = true → ∃ e, s.status.errCode = errorByte e
  abort_busy : s.status.abortReq = true → busy s = true
  not_rejected : s.status.rej = false → s.status.rejMem = false ∧ s.status.rejOp = 0
  pending_valid : s.status.framePending = true → s.status.canvasValid = true
  in_init : s.eng = .init → s.status.canvasValid = false ∧ s.status.framePending = false ∧ s.status.lastOp = 0x2
  in_lzw : s.eng = .lzw → s.status.idxValid = false ∧ s.status.lastOp = 0x3
  in_comp : s.eng = .compV ∨ s.eng = .compS ∨ s.eng = .compW → s.status.canvasValid = true ∧ s.status.idxValid = true
    ∧ s.status.framePending = false ∧ s.status.lastOp = 0x4
  in_disp : s.eng = .disp → s.status.canvasValid = true ∧ s.status.framePending = false ∧ s.status.lastOp = 0x5

/-- Every memory is in canonical form and lists no cell beyond its capacity, so no Engine write went out of bounds
(R77), with what the latches and counters must satisfy for that. -/
structure StorageInv (s : State) : Prop where
  params_legal : s.params.legal = true
  inMem_wf : s.inMem.wf = true
  idxMem_wf : s.idxMem.wf = true
  gct_wf : s.gct.wf = true
  lct_wf : s.lct.wf = true
  canvas_wf : s.canvas.wf = true
  snap_wf : s.snap.wf = true
  table_wf : s.table.wf = true
  inMem_below : s.inMem.below s.params.inMemBytes = true
  idxMem_below : s.idxMem.below s.params.idxMemBytes = true
  gct_below : s.gct.below 256 = true
  lct_below : s.lct.below 256 = true
  canvas_below : s.canvas.below s.params.canvasPixels = true
  snap_below : s.snap.below s.params.canvasPixels = true
  table_below : s.table.below 4096 = true
  canvas_fits : canvasArea s ≤ s.params.canvasPixels
  index_fits : outLength s ≤ s.params.idxMemBytes
  in_lzw : s.eng = .lzw → legalMinCode s.indexLatch.lm.toNat = true
  in_init : s.eng = .init → s.work.n < canvasArea s
  in_disp : s.eng = .disp → inRegion s.canvasLatch s.frameLatch s.work.x s.work.y = true

/-- Slot k of the code table is initialised (R55): a root or a built entry. -/
def initialised (s : State) (k : Nat) : Prop :=
  k < 2 ^ s.indexLatch.lm.toNat ∨ (2 ^ s.indexLatch.lm.toNat + 2 ≤ k ∧ k < s.lzw.nextFree.toNat)

/-- The code width that R98 gives for M and NEXT_FREE; `Nat.clog 2 n` is the least w with n ≤ 2^w. -/
def scheduledWidth (m nextFree : Nat) : Nat := min 12 (max (m + 1) (Nat.clog 2 (nextFree + 1)))

/-- The LZW engine while LZW_DECODE runs: M legal (R131), the stream inside IN_MEM and the cursor inside the stream
(R124), NEXT_FREE's range (R39, R97), the width schedule (R98), the code table (R56), and indices below 2^M (R145). -/
structure LzwRunning (s : State) : Prop where
  params_legal : s.params.legal = true
  min_code : legalMinCode s.indexLatch.lm.toNat = true
  stream_inside : s.indexLatch.lbase.toNat + s.indexLatch.llen.toNat ≤ s.params.inMemBytes
  cursor_inside : s.bitPos.toNat ≤ 8 * s.indexLatch.llen.toNat
  output_fits : outLength s ≤ s.params.idxMemBytes
  output_open : s.pixCount.toNat < outLength s
  free_low : 2 ^ s.indexLatch.lm.toNat + 2 ≤ s.lzw.nextFree.toNat
  free_high : s.lzw.nextFree.toNat ≤ 4096
  free_first : s.lzw.prevValid = false → s.lzw.nextFree.toNat = 2 ^ s.indexLatch.lm.toNat + 2
  width_scheduled : s.lzw.width.toNat = scheduledWidth s.indexLatch.lm.toNat s.lzw.nextFree.toNat
  prev_initialised : s.lzw.prevValid = true → initialised s s.lzw.prev.toNat
  roots : ∀ k, k < 2 ^ s.indexLatch.lm.toNat →
    (slotAt s k).prefixCode = none ∧ (slotAt s k).suffixIdx = BitVec.ofNat 8 k
  built : ∀ k, 2 ^ s.indexLatch.lm.toNat + 2 ≤ k → k < s.lzw.nextFree.toNat →
    ∃ q, (slotAt s k).prefixCode = some q ∧ q.toNat < k ∧ q.toNat ≠ 2 ^ s.indexLatch.lm.toNat
      ∧ q.toNat ≠ 2 ^ s.indexLatch.lm.toNat + 1 ∧ (slotAt s k).suffixIdx.toNat < 2 ^ s.indexLatch.lm.toNat
  indices_small : ∀ n, n < s.pixCount.toNat → (idxByte s n).toNat < 2 ^ s.indexLatch.lm.toNat

/-- `LzwRunning` while ENG_STATE = LZW. -/
def LzwInv (s : State) : Prop := s.params.legal = true ∧ (s.eng = .lzw → LzwRunning s)

/-- The compositor's counters: n, s and (x, y) are the progress the Host sees in PROGRESS (R46, R47), they stay inside
the canvas, the frame and REGION, and every index that was validated has a table entry (R178, R182). -/
structure CompositorInv (s : State) : Prop where
  params_legal : s.params.legal = true
  canvas_fits : canvasArea s ≤ s.params.canvasPixels
  index_fits : outLength s ≤ s.params.idxMemBytes
  frame_fits : frameArea s.frameLatch ≤ s.params.idxMemBytes
  index_open : s.eng = .lzw → 0 < outLength s
  index_valid : s.status.idxValid = true → 0 < outLength s
  disposal_legal : s.frameLatch.disp.toNat ≤ 3
  in_init : s.eng = .init → s.work.n < canvasArea s ∧ s.progress.toNat = s.work.n
  in_compV : s.eng = .compV → s.work.s < frameArea s.frameLatch ∧ s.progress.toNat = s.work.s
    ∧ ∀ n, n < s.work.s → inTable s.frameLatch (idxByte s n) = true
  in_compS : s.eng = .compS → 0 < frameArea s.frameLatch ∧ s.progress.toNat = frameArea s.frameLatch
    ∧ ∀ n, n < frameArea s.frameLatch → inTable s.frameLatch (idxByte s n) = true
  in_compW : s.eng = .compW → s.work.s < frameArea s.frameLatch
    ∧ s.progress.toNat = frameArea s.frameLatch + s.work.s
    ∧ ∀ n, n < frameArea s.frameLatch → inTable s.frameLatch (idxByte s n) = true
  in_disp : s.eng = .disp → 2 ≤ s.frameLatch.disp.toNat
    ∧ inRegion s.canvasLatch s.frameLatch s.work.x s.work.y = true
    ∧ s.progress.toNat = (s.work.y - s.frameLatch.top.toNat)
        * (regionRight s.canvasLatch s.frameLatch - s.frameLatch.left.toNat) + (s.work.x - s.frameLatch.left.toNat)

/-- What holds of every state a run reaches. -/
structure RunInv (s : State) : Prop where
  control : ControlInv s
  storage : StorageInv s
  lzw : LzwInv s
  compositor : CompositorInv s

/-- What an operation's steps read and write, but for the report of its end: ENG_STATE, the latches, the engine's
registers and counters, the validity flags and ABORT_REQ, and every memory (R74, R224). -/
structure EngineView where
  params : Params
  eng : EngState
  canvasValid : Bool
  idxValid : Bool
  framePending : Bool
  abortReq : Bool
  lzw : LzwRegs
  bitPos : Word
  pixCount : Word
  progress : Word
  work : WorkCounters
  canvasLatch : CanvasLatch
  indexLatch : IndexLatch
  frameLatch : FrameLatch
  inMem : Store Byte
  idxMem : Store Byte
  gct : Store Colour
  lct : Store Colour
  canvas : Store Colour
  snap : Store Colour
  table : Store Slot
  deriving DecidableEq, Repr

/-- The view of a state. -/
def engineView (s : State) : EngineView where
  params := s.params
  eng := s.eng
  canvasValid := s.status.canvasValid
  idxValid := s.status.idxValid
  framePending := s.status.framePending
  abortReq := s.status.abortReq
  lzw := s.lzw
  bitPos := s.bitPos
  pixCount := s.pixCount
  progress := s.progress
  work := s.work
  canvasLatch := s.canvasLatch
  indexLatch := s.indexLatch
  frameLatch := s.frameLatch
  inMem := s.inMem
  idxMem := s.idxMem
  gct := s.gct
  lct := s.lct
  canvas := s.canvas
  snap := s.snap
  table := s.table

/-- Whether an event is one a Host may make without meaning to end the running operation: any but a hardware reset,
and no write of the exact SOFT_RESET or ABORT word to CMD (R220). -/
def harmless (p : Params) (e : Event) : Bool :=
  match e with
  | .engineStep => false
  | .read _ _ => true
  | .write addr _ _ data => decide (addr ≠ p.base + 4) || (decide (data ≠ 0x00000001) && decide (data ≠ 0x00000006))
  | .wait => true
  | .stopOnError => true
  | .hardwareReset => false

end Sys2Proof.Machine
end

