-- ==== Sys2Proof/Certificates/Slice0/Obligations.lean ====
section
/-! DEFINITION. The statements for the provers. Numbers R<n> are rules of spec/, log <n> is notes/assumptions/<n>.md.
A next state is given as the old one with the named fields replaced, so it says what does not change as well. -/

namespace Sys2Proof.Claims

open Sys2Proof.Machine

/-! What the statements speak of. -/

/-- A Host word read at an offset. -/
def readWord (s : State) (off : Nat) : Host.Outcome State Fault Refusal := hostRead (s.params.base + off) 4 s

/-- A Host word write at an offset. -/
def writeWord (s : State) (off : Nat) (w : Word) : Host.Outcome State Fault Refusal :=
  hostWrite (s.params.base + off) 4 0xF w s

/-- A Host word read at an offset is answered with a word. -/
def readsAs (s : State) (off : Nat) (w : Word) : Prop := ∃ t, readWord s off = .next t ∧ t.host.response = some w

/-- An outcome with its next state changed. -/
def mapNext (f : State → State) : Host.Outcome State Fault Refusal → Host.Outcome State Fault Refusal
  | .next t => .next (f t)
  | .fault r => .fault r
  | .refused r => .refused r

/-- The width and alignment R61 admits, at an address of the block (R60). -/
def wordAccess (p : Params) (addr bytes : Nat) : Prop :=
  bytes = 4 ∧ p.base ≤ addr ∧ addr < p.base + 2 ^ 30 ∧ (addr - p.base) % 4 = 0

/-- The offsets where R62 answers a read with data. -/
def readable (p : Params) (off : Nat) : Prop :=
  off < 0x100
  ∨ (0x1000 ≤ off ∧ off < 0x1800)
  ∨ (0x01000000 ≤ off ∧ off < 0x02000000 ∧ off - 0x01000000 < p.inMemBytes)
  ∨ (0x02000000 ≤ off ∧ off < 0x10000000 ∧ off - 0x02000000 < p.idxMemBytes)
  ∨ (0x10000000 ≤ off ∧ off < 0x30000000 ∧ (off - 0x10000000) / 4 < p.canvasPixels)

/-- The offsets where R62 performs a write, or drops it without a bus error. -/
def writable (p : Params) (off : Nat) : Prop :=
  off < 0x100
  ∨ (0x1000 ≤ off ∧ off < 0x1800)
  ∨ (0x01000000 ≤ off ∧ off < 0x02000000 ∧ off - 0x01000000 < p.inMemBytes)

/-- The bits of a read-write register that store (R22, R28 to R37); none for any other offset. -/
def storedBits (off : Nat) : Option Word :=
  match off with
  | 0x00C => some 0x00000007
  | 0x010 => some 0xFFFFFFFF
  | 0x014 => some 0x000000FF
  | 0x018 => some 0x0000000F
  | 0x01C => some 0xFFFFFFFF
  | 0x020 => some 0xFFFFFFFF
  | 0x024 => some 0x000001FF
  | 0x028 => some 0x000000FF
  | 0x02C => some 0x0000000F
  | 0x030 => some 0xFFFFFFFF
  | 0x034 => some 0xFFFFFFFF
  | _ => none

/-- The four rows of R93: every reserved or illegal CMD word. -/
def isIllegal : Instr → Bool
  | .illegalOp0 => true
  | .illegalOp7 => true
  | .illegalOp8F _ => true
  | .illegalRsvd _ _ => true
  | .softReset => false
  | .canvasInit => false
  | .lzwDecode => false
  | .compose => false
  | .dispose => false
  | .abort => false
  | .lzwClear _ => false
  | .lzwEnd _ => false
  | .lzwFirst _ => false
  | .lzwHit _ => false
  | .lzwKwkwk _ => false
  | .lzwInvalid _ => false

/-- The instructions of LZW_DECODE: the command and its six code classes. -/
def isLzw : Instr → Bool
  | .lzwDecode => true
  | .lzwClear _ => true
  | .lzwEnd _ => true
  | .lzwFirst _ => true
  | .lzwHit _ => true
  | .lzwKwkwk _ => true
  | .lzwInvalid _ => true
  | .softReset => false
  | .canvasInit => false
  | .compose => false
  | .dispose => false
  | .abort => false
  | .illegalOp0 => false
  | .illegalOp7 => false
  | .illegalOp8F _ => false
  | .illegalRsvd _ _ => false

/-- STATUS after an error at acceptance or in a step (R242). -/
def failed (code : Byte) (st : Status) : Status := { st with done := false, err := true, errCode := code }

/-- STATUS right after ACCEPT(op) (R223). -/
def accepted (op : BitVec 4) (st : Status) : Status :=
  { st with done := false, err := false, errCode := 0, lastOp := op }

/-- STATUS after a successful end (R246). -/
def finished (st : Status) : Status := { st with done := true, err := false, errCode := 0 }

/-- EMIT of a string (R142): its indices stand in IDX_MEM from PIX_COUNT on, up to N = IDX_W × IDX_H, and PIX_COUNT
counts them; every other byte is as before. -/
def emits (s t : State) (str : List Byte) : Prop :=
  t.pixCount.toNat = min (outLength s) (s.pixCount.toNat + str.length)
  ∧ ∀ n, idxByte t n =
      if s.pixCount.toNat ≤ n ∧ n < min (outLength s) (s.pixCount.toNat + str.length)
      then str.getD (n - s.pixCount.toNat) 0 else idxByte s n

/-- The last clause of LZW_STEP (R141, R144): the operation finishes with IDX_VALID = 1 when PIX_COUNT = N, else it
runs on. -/
def endsWhenFull (s t : State) : Prop :=
  (t.pixCount.toNat = outLength s → t.eng = .idle ∧ t.status = finished { s.status with idxValid := true })
  ∧ (t.pixCount.toNat ≠ outLength s → t.eng = s.eng ∧ t.status = s.status)

/-- ADD(q, k) (R138, R139): slot NEXT_FREE is built while the table is not full, WIDTH grows when NEXT_FREE reaches
2^WIDTH below 12, and every other slot is as before. -/
def addsSlot (s t : State) (q : Code) (k : Byte) : Prop :=
  (s.lzw.nextFree.toNat < 4096 →
    t.lzw.nextFree.toNat = s.lzw.nextFree.toNat + 1
    ∧ t.lzw.width.toNat =
        (if s.lzw.nextFree.toNat + 1 = 2 ^ s.lzw.width.toNat ∧ s.lzw.width.toNat < 12 then s.lzw.width.toNat + 1
         else s.lzw.width.toNat)
    ∧ ∀ n, slotAt t n = if n = s.lzw.nextFree.toNat then { prefixCode := some q, suffixIdx := k } else slotAt s n)
  ∧ (4096 ≤ s.lzw.nextFree.toNat →
      t.lzw.nextFree = s.lzw.nextFree ∧ t.lzw.width = s.lzw.width ∧ ∀ n, slotAt t n = slotAt s n)

/-- INIT_TABLE (R132): the roots are their own strings, WIDTH, NEXT_FREE and PREV are as at the start of a stream, and
every slot that is no root is as before. -/
def initialises (s t : State) (m : Nat) : Prop :=
  t.lzw.width.toNat = m + 1 ∧ t.lzw.nextFree.toNat = 2 ^ m + 2 ∧ t.lzw.prev = 0 ∧ t.lzw.prevValid = false
  ∧ t.lzw.codeStart = s.lzw.codeStart
  ∧ ∀ n, slotAt t n = if n < 2 ^ m then { prefixCode := none, suffixIdx := BitVec.ofNat 8 n } else slotAt s n

/-- A canvas or frame size that acceptance takes (R29, R33). -/
def legalSize (maxDim capacity w h : Nat) : Prop := 1 ≤ w ∧ w ≤ maxDim ∧ 1 ≤ h ∧ h ≤ maxDim ∧ w * h ≤ capacity

/-- The pass of the GIF interlace a frame row belongs to (R181): rows 0, 8, 16, …; then 4, 12, …; then 2, 6, …; then
1, 3, …. -/
def passOf (r : Nat) : Nat := if r % 8 = 0 then 0 else if r % 8 = 4 then 1 else if r % 4 = 2 then 2 else 3

/-- The cell that stream index k of a frame is written to, for the latches of a state (R177, R53). -/
def pixelCell (s : State) (k : Nat) : Nat := cellOf s (pixelX s.frameLatch k) (pixelY s.frameLatch k)

/-- Stream index k is written: neither transparent nor off the canvas (R184). -/
def drawn (s : State) (k : Nat) : Prop :=
  transparent s.frameLatch (idxByte s k) = false ∧ inside s.canvasLatch s.frameLatch k = true

/-- The number of cells of REGION (R196). -/
def regionSize (s : State) : Nat :=
  (regionRight s.canvasLatch s.frameLatch - s.frameLatch.left.toNat)
    * (regionBottom s.canvasLatch s.frameLatch - s.frameLatch.top.toNat)

/-- The Engine is idle with no abort asked for, and no Host access is pending. -/
def quiet (s : State) : Prop := s.eng = .idle ∧ s.status.abortReq = false ∧ s.host.events = []

/-- The codes of a list of pixels without compression: a ClearCode before every root code (R133, R135). -/
def plainCodes (m : Nat) (pixels : List Byte) : List (Nat × Code) :=
  pixels.flatMap fun v => [(m + 1, BitVec.ofNat 12 (2 ^ m)), (m + 1, v.setWidth 12)]

/-- The caller kind of each error, as the table of R243 lists them. -/
def kindTable : List (ErrorCode × Byte × CallerKind) :=
  [(.bitstreamExhausted, 0x01, .bufferingFailed), (.invalidLzwCode, 0x02, .invalidGifImage),
   (.shortPixelData, 0x03, .invalidGifImage), (.invalidImage, 0x04, .invalidGifImage),
   (.invalidResolution, 0x05, .invalidResolution), (.invalidCodeSize, 0x06, .invalidGifImage),
   (.inputRange, 0x07, .invalidArgs), (.invalidDisposal, 0x08, .invalidGifImage),
   (.sequenceError, 0x09, .invalidArgs), (.illegalCommand, 0x0A, .invalidArgs), (.aborted, 0x0B, .timedOut)]

end Sys2Proof.Claims

section

open Sys2Proof Sys2Proof.Machine Sys2Proof.Claims

/-! Encoding. -/

/-- R91 to R93, R97: every well-formed instruction has an engine state its encoding is of its row in, and in every such
state its encoding decodes to it, every operand included. -/
def Obligations.DecodeOfEncode : Prop :=
  ∀ i : Instr, i.wf = true →
    (∃ ctx : CodeCtx, ctx.legal = true ∧ i.fits ctx = true)
    ∧ ∀ ctx : CodeCtx, i.fits ctx = true → decode ctx (encode i) = i

/-- R91 to R93, R97: every word is the encoding of the instruction it decodes to, which is well formed, and of no other
well-formed one; the same of every 12-bit code in every legal engine state, for the instructions of a row that the state
admits. -/
def Obligations.EncodeOfDecode : Prop :=
  (∀ w : Word, encode (decodeCmd w) = .cmd w ∧ (decodeCmd w).wf = true
      ∧ ∀ i : Instr, i.wf = true → encode i = .cmd w → i = decodeCmd w)
  ∧ ∀ (ctx : CodeCtx) (c : Code), ctx.legal = true →
      encode (decodeCode ctx c) = .code c ∧ (decodeCode ctx c).wf = true ∧ (decodeCode ctx c).fits ctx = true
      ∧ ∀ i : Instr, encode i = .code c → i.fits ctx = true → i = decodeCode ctx c

/-- R92, R93: which words are of which row. -/
def Obligations.CommandWordTable : Prop :=
  ∀ w : Word,
    (decodeCmd w = .softReset ↔ w = 0x00000001)
    ∧ (decodeCmd w = .canvasInit ↔ w = 0x00000002)
    ∧ (decodeCmd w = .lzwDecode ↔ w = 0x00000003)
    ∧ (decodeCmd w = .compose ↔ w = 0x00000004)
    ∧ (decodeCmd w = .dispose ↔ w = 0x00000005)
    ∧ (decodeCmd w = .abort ↔ w = 0x00000006)
    ∧ (decodeCmd w = .illegalOp0 ↔ w = 0x00000000)
    ∧ (decodeCmd w = .illegalOp7 ↔ w = 0x00000007)
    ∧ (∀ low, decodeCmd w = .illegalOp8F low ↔ w.toNat = 8 + low.toNat)
    ∧ (∀ op rsvd, decodeCmd w = .illegalRsvd op rsvd ↔ rsvd ≠ 0 ∧ w.toNat = 16 * rsvd.toNat + op.toNat)

/-- R97: the class table, its INVALID row spelled out, and what a full table leaves. -/
def Obligations.CodeClassTable : Prop :=
  ∀ (ctx : CodeCtx) (c : Code), ctx.legal = true →
    (decodeCode ctx c = .lzwClear c ↔ c.toNat = 2 ^ ctx.m)
    ∧ (decodeCode ctx c = .lzwEnd c ↔ c.toNat = 2 ^ ctx.m + 1)
    ∧ (decodeCode ctx c = .lzwFirst c ↔ ctx.prevValid = false ∧ c.toNat < 2 ^ ctx.m)
    ∧ (decodeCode ctx c = .lzwHit c ↔ ctx.prevValid = true
        ∧ (c.toNat < 2 ^ ctx.m ∨ (2 ^ ctx.m + 2 ≤ c.toNat ∧ c.toNat < ctx.nextFree)))
    ∧ (decodeCode ctx c = .lzwKwkwk c ↔ ctx.prevValid = true ∧ c.toNat = ctx.nextFree ∧ ctx.nextFree < 4096)
    ∧ (decodeCode ctx c = .lzwInvalid c ↔
        (ctx.prevValid = false ∧ ctx.nextFree ≤ c.toNat) ∨ (ctx.prevValid = true ∧ ctx.nextFree < c.toNat))
    ∧ (ctx.nextFree = 4096 → c.toNat ≠ 2 ^ ctx.m → c.toNat ≠ 2 ^ ctx.m + 1 → decodeCode ctx c = .lzwHit c)

/-- R92, R93, R96, R97: words and codes written out from the tables. -/
def Obligations.WrittenOutWords : Prop :=
  decodeCmd 0x00000001 = .softReset ∧ decodeCmd 0x00000003 = .lzwDecode ∧ decodeCmd 0x00000005 = .dispose
  ∧ decodeCmd 0x0000000C = .illegalOp8F 0b100 ∧ decodeCmd 0x00000013 = .illegalRsvd 0x3 0x0000001
  ∧ decodeCode { m := 2, nextFree := 6, prevValid := false } 4 = .lzwClear 4
  ∧ decodeCode { m := 8, nextFree := 300, prevValid := true } 257 = .lzwEnd 257
  ∧ decodeCode { m := 2, nextFree := 6, prevValid := true } 6 = .lzwKwkwk 6

/-! The BitReader. -/

/-- R120: bit i of the code is stream bit BIT_POS + i, which is bit (BIT_POS + i) mod 8 of the byte at
LBASE + (BIT_POS + i) div 8; the cursor moves past the code and CODE_START is where it began. -/
def Obligations.NextCodeBits : Prop :=
  ∀ s : State, s.lzw.width.toNat ≤ 12 → s.bitPos.toNat + s.lzw.width.toNat ≤ 8 * s.indexLatch.llen.toNat →
    8 * s.indexLatch.llen.toNat < 2 ^ 32 →
    ∃ c t, nextCode s = some (c, t)
      ∧ (∀ i, i < s.lzw.width.toNat → c.getLsbD i =
          (inByte s (s.indexLatch.lbase.toNat + (s.bitPos.toNat + i) / 8)).getLsbD ((s.bitPos.toNat + i) % 8))
      ∧ c.toNat < 2 ^ s.lzw.width.toNat
      ∧ t.bitPos.toNat = s.bitPos.toNat + s.lzw.width.toNat
      ∧ t = { s with lzw := { s.lzw with codeStart := s.bitPos }, bitPos := t.bitPos }

/-- R95, R120: a stream that packs codes one after another, each least-significant bit first at its width, is read
back code by code, whatever widths in 3..12 they have. -/
def Obligations.PackedCodesReadBack : Prop :=
  ∀ (before after : List (Nat × Code)) (width : Nat) (c : Code) (s : State),
    (∀ p ∈ before ++ (width, c) :: after, 3 ≤ p.1 ∧ p.1 ≤ 12 ∧ p.2.toNat < 2 ^ p.1) →
    s.indexLatch.llen.toNat = (packCodes (before ++ (width, c) :: after)).length →
    8 * s.indexLatch.llen.toNat < 2 ^ 32 →
    (∀ k, k < s.indexLatch.llen.toNat →
      inByte s (s.indexLatch.lbase.toNat + k) = (packCodes (before ++ (width, c) :: after)).getD k 0) →
    s.bitPos.toNat = (before.map Prod.fst).sum →
    s.lzw.width.toNat = width →
    ∃ t, nextCode s = some (c, t) ∧ t.bitPos.toNat = s.bitPos.toNat + width

/-- R121: exhaustion is raised exactly when fewer bits remain than WIDTH, with the two detail words, and BIT_POS stays;
at most 11 bits remain then. -/
def Obligations.ExhaustedStream : Prop :=
  ∀ s : State, s.eng = .lzw → s.status.abortReq = false → LzwInv s →
    (nextCode s = none ↔ 8 * s.indexLatch.llen.toNat - s.bitPos.toNat < s.lzw.width.toNat)
    ∧ (8 * s.indexLatch.llen.toNat - s.bitPos.toNat < s.lzw.width.toNat →
        ∃ t, engineStep s = .next t
          ∧ t = { s with eng := .idle, status := failed 0x01 s.status, errInfo0 := t.errInfo0, errInfo1 := s.bitPos }
          ∧ t.errInfo0.toNat = 8 * s.indexLatch.llen.toNat - s.bitPos.toNat ∧ t.errInfo0.toNat ≤ 11)

/-- R124: what IN_MEM holds outside the stream has no effect on an LZW step. -/
def Obligations.StreamOutsideIrrelevant : Prop :=
  ∀ (s : State) (m : Store Byte), s.eng = .lzw →
    (∀ a, s.indexLatch.lbase.toNat ≤ a → a < s.indexLatch.lbase.toNat + s.indexLatch.llen.toNat →
      m.get (Config.unwrittenByte .inMem) a = inByte s a) →
    engineStep { s with inMem := m } = mapNext (fun t => { t with inMem := m }) (engineStep s)

/-! Registers, windows and the bus. -/

/-- R270, R272: what a Host reads of every register right after reset, and the interrupt line. -/
def Obligations.ResetRegisters : Prop :=
  irq State.reset = false
  ∧ ∀ off, off < 0x100 → off % 4 = 0 →
      ∃ t, readWord State.reset off = .next t ∧ t.host.response = some (if off = 0x000 then 0x4C5A5731 else 0)

/-- R22, R23, R28 to R37: a Host write to any register but CMD and STATUS stores the register's listed bits in the
register that stands at the offset, reads back as written in them, and changes no other register and nothing else; a
write to a read-only or reserved offset changes nothing. Busy or idle makes no difference. -/
def Obligations.RegisterWrites : Prop :=
  ∀ (s : State) (off : Nat) (w : Word), off < 0x100 → off % 4 = 0 → off ≠ 0x004 → off ≠ 0x008 →
    ∃ t, writeWord s off w = .next t
      ∧ t = { s with regs := t.regs }
      ∧ (storedBits off = none → t = s)
      ∧ (off = 0x00C → t.regs = { s.regs with irqEn := w.extractLsb' 0 3 })
      ∧ (off = 0x010 → t.regs = { s.regs with canvasSize := w })
      ∧ (off = 0x014 → t.regs = { s.regs with bgIndex := w.extractLsb' 0 8 })
      ∧ (off = 0x018 → t.regs = { s.regs with gctCfg := w.extractLsb' 0 4 })
      ∧ (off = 0x01C → t.regs = { s.regs with framePos := w })
      ∧ (off = 0x020 → t.regs = { s.regs with frameSize := w })
      ∧ (off = 0x024 → t.regs = { s.regs with frameFlags := w.extractLsb' 0 9 })
      ∧ (off = 0x028 → t.regs = { s.regs with transpIndex := w.extractLsb' 0 8 })
      ∧ (off = 0x02C → t.regs = { s.regs with lzwMin := w.extractLsb' 0 4 })
      ∧ (off = 0x030 → t.regs = { s.regs with inBase := w })
      ∧ (off = 0x034 → t.regs = { s.regs with inLen := w })
      ∧ ∀ off', off' < 0x100 → off' % 4 = 0 →
          regRead off' t = (if off' = off then (storedBits off).elim (regRead off' s) (w &&& ·) else regRead off' s)

/-- R24 to R26, R38, R40 to R46: what a Host reads, in every state, of STATUS and of every other register that no
register write stores: where each field stands in its word, every other bit 0; CMD and the reserved offsets read 0. -/
def Obligations.ReadOnlyRegisters : Prop :=
  ∀ s : State,
    readsAs s 0x000 0x4C5A5731 ∧ readsAs s 0x004 0
    ∧ (∃ w, readsAs s 0x008 w
      ∧ w.getLsbD 0 = decide (s.eng ≠ .idle) ∧ w.getLsbD 1 = s.status.done ∧ w.getLsbD 2 = s.status.err
      ∧ w.getLsbD 3 = s.status.rej ∧ w.extractLsb' 4 4 = s.status.lastOp ∧ w.extractLsb' 8 8 = s.status.errCode
      ∧ w.getLsbD 16 = s.status.canvasValid ∧ w.getLsbD 17 = s.status.idxValid
      ∧ w.getLsbD 18 = s.status.framePending ∧ w.getLsbD 19 = s.status.abortReq
      ∧ w.extractLsb' 20 4 = s.status.rejOp ∧ w.getLsbD 24 = s.status.rejMem ∧ w.extractLsb' 25 7 = 0)
    ∧ readsAs s 0x038 s.errInfo0 ∧ readsAs s 0x03C s.errInfo1
    ∧ (∃ w, readsAs s 0x040 w
      ∧ w.extractLsb' 0 4 = s.lzw.width ∧ w.extractLsb' 4 13 = s.lzw.nextFree
      ∧ w.extractLsb' 17 12 = (if s.lzw.prevValid = true then s.lzw.prev else 0)
      ∧ w.getLsbD 29 = s.lzw.prevValid ∧ w.extractLsb' 30 2 = 0)
    ∧ readsAs s 0x044 s.bitPos ∧ readsAs s 0x048 s.pixCount
    ∧ (∃ w, readsAs s 0x04C w ∧ w.extractLsb' 0 16 = s.canvasLatch.cw ∧ w.extractLsb' 16 16 = s.canvasLatch.ch)
    ∧ (∃ w, readsAs s 0x050 w ∧ w.extractLsb' 0 24 = s.canvasLatch.bgRgb ∧ w.extractLsb' 24 8 = 0)
    ∧ (∃ w, readsAs s 0x054 w ∧ w.extractLsb' 0 16 = s.indexLatch.idxW ∧ w.extractLsb' 16 16 = s.indexLatch.idxH)
    ∧ (∃ w, readsAs s 0x058 w ∧ w.extractLsb' 0 16 = s.frameLatch.left ∧ w.extractLsb' 16 16 = s.frameLatch.top)
    ∧ (∃ w, readsAs s 0x05C w ∧ w.extractLsb' 0 16 = s.frameLatch.w ∧ w.extractLsb' 16 16 = s.frameLatch.h)
    ∧ (∃ w, readsAs s 0x060 w
      ∧ w.getLsbD 0 = s.frameLatch.interlace ∧ w.getLsbD 1 = s.frameLatch.ten
      ∧ (s.frameLatch.tsel = .noTable → w.extractLsb' 2 2 = 0)
      ∧ (s.frameLatch.tsel = .globalTable → w.extractLsb' 2 2 = 1)
      ∧ (s.frameLatch.tsel = .localTable → w.extractLsb' 2 2 = 2)
      ∧ w.extractLsb' 4 3 = s.frameLatch.disp ∧ w.getLsbD 7 = false ∧ w.extractLsb' 8 8 = s.frameLatch.tidx
      ∧ w.extractLsb' 16 9 = s.frameLatch.tsize ∧ w.extractLsb' 25 7 = 0)
    ∧ readsAs s 0x064 s.progress
    ∧ ∀ off, 0x068 ≤ off → off < 0x100 → off % 4 = 0 → readsAs s off 0

/-- R27: a STATUS write clears what its bits 1 to 3 name, in every state of the Engine, and nothing else. -/
def Obligations.StatusWriteOneToClear : Prop :=
  ∀ (s : State) (w : Word), ∃ t, writeWord s 0x008 w = .next t
    ∧ t = { s with status := { s.status with
        done := t.status.done, err := t.status.err, errCode := t.status.errCode, rej := t.status.rej,
        rejMem := t.status.rejMem, rejOp := t.status.rejOp } }
    ∧ t.status.done = (if w.getLsbD 1 = true then false else s.status.done)
    ∧ t.status.err = (if w.getLsbD 2 = true then false else s.status.err)
    ∧ t.status.errCode = (if w.getLsbD 2 = true then 0 else s.status.errCode)
    ∧ t.status.rej = (if w.getLsbD 3 = true then false else s.status.rej)
    ∧ t.status.rejMem = (if w.getLsbD 3 = true then false else s.status.rejMem)
    ∧ t.status.rejOp = (if w.getLsbD 3 = true then 0 else s.status.rejOp)

/-- R250: the interrupt line, as a function of the STATUS and IRQ_EN words a Host reads. -/
def Obligations.InterruptLine : Prop :=
  ∀ s : State, irq s =
    (((regRead 0x008 s).getLsbD 1 && (regRead 0x00C s).getLsbD 0)
      || ((regRead 0x008 s).getLsbD 2 && (regRead 0x00C s).getLsbD 1)
      || ((regRead 0x008 s).getLsbD 3 && (regRead 0x00C s).getLsbD 2))

/-- R62, R65: an IN_MEM word written while idle is four bytes, the lowest address in bits 7:0; bytes beyond the
capacity are ignored, every other byte and the rest of the state stay, and the word reads back. -/
def Obligations.InputMemoryWords : Prop :=
  ∀ (s : State) (k : Nat) (w : Word), s.params.legal = true → busy s = false → 4 * k < s.params.inMemBytes →
    ∃ t, writeWord s (0x01000000 + 4 * k) w = .next t
      ∧ t = { s with inMem := t.inMem }
      ∧ (∀ a, inByte t a =
          if 4 * k ≤ a ∧ a < 4 * k + 4 ∧ a < s.params.inMemBytes then w.extractLsb' (8 * (a - 4 * k)) 8
          else inByte s a)
      ∧ (4 * k + 4 ≤ s.params.inMemBytes →
          ∃ u, readWord t (0x01000000 + 4 * k) = .next u ∧ u.host.response = some w)

/-- R66: a colour table entry holds bits 23:0 of the word written while idle, and every other entry and the rest of the
state stay; in every state a read returns the entry in bits 23:0 and 0 in bits 31:24. -/
def Obligations.ColourTableWords : Prop :=
  ∀ (s : State) (i : Nat), i < 256 →
    (∀ w : Word, busy s = false →
      (∃ t, writeWord s (0x1000 + 4 * i) w = .next t
        ∧ t = { s with gct := t.gct }
        ∧ ∀ j, gctEntry t j = if j = i then w.extractLsb' 0 24 else gctEntry s j)
      ∧ ∃ t, writeWord s (0x1400 + 4 * i) w = .next t
        ∧ t = { s with lct := t.lct }
        ∧ ∀ j, lctEntry t j = if j = i then w.extractLsb' 0 24 else lctEntry s j)
    ∧ (∃ w, readsAs s (0x1000 + 4 * i) w ∧ w.extractLsb' 0 24 = gctEntry s i ∧ w.extractLsb' 24 8 = 0)
    ∧ ∃ w, readsAs s (0x1400 + 4 * i) w ∧ w.extractLsb' 0 24 = lctEntry s i ∧ w.extractLsb' 24 8 = 0

/-- R62, R65, R67, R69: IDX_MEM words and CANVAS cells as the Host reads them while the Engine does not write them; a
CANVAS word has bits 31:24 zero in every state. -/
def Obligations.ResultWindows : Prop :=
  ∀ s : State, s.params.legal = true →
    (∀ k, s.eng ≠ .lzw → 4 * k < s.params.idxMemBytes →
      ∃ t w, readWord s (0x02000000 + 4 * k) = .next t ∧ t.host.response = some w
        ∧ ∀ i, i < 4 → w.extractLsb' (8 * i) 8 =
            if 4 * k + i < s.params.idxMemBytes then idxByte s (4 * k + i) else 0)
    ∧ (∀ n, n < s.params.canvasPixels →
      ∃ t w, readWord s (0x10000000 + 4 * n) = .next t ∧ t.host.response = some w ∧ w.extractLsb' 24 8 = 0
        ∧ (s.eng = .idle ∨ s.eng = .lzw → n < canvasArea s → w.extractLsb' 0 24 = canvasCell s n))

/-- R61, R62, R63, R68: of the block's 2^30 bytes, a Host read is answered with data exactly where R61 and R62 admit it,
else with a bus error; and a read changes nothing but what the Host has got (and the model's counter of free values,
log 4). That a read outside those bytes stops too is the model's choice (log 9). -/
def Obligations.ReadsAnswerOrFault : Prop :=
  ∀ (s : State) (addr bytes : Nat),
    (wordAccess s.params addr bytes ∧ readable s.params (addr - s.params.base) →
      ∃ t w, hostRead addr bytes s = .next t
        ∧ t = { s with host := { s.host with response := some w }, draws := t.draws })
    ∧ (¬ (wordAccess s.params addr bytes ∧ readable s.params (addr - s.params.base)) →
      ∃ f, hostRead addr bytes s = .fault f)

/-- R61, R62, R63: of the block's 2^30 bytes, a Host write is taken exactly where R61 and R62 admit it, else answered with
a bus error, on which the model stops and so changes nothing (log 8). That a write outside those bytes stops too is the
model's choice (log 9). -/
def Obligations.WritesAnswerOrFault : Prop :=
  ∀ (s : State) (addr bytes : Nat) (enables : BitVec 4) (w : Word),
    (wordAccess s.params addr bytes ∧ enables = 0xF ∧ writable s.params (addr - s.params.base) →
      ∃ t, hostWrite addr bytes enables w s = .next t)
    ∧ (¬ (wordAccess s.params addr bytes ∧ enables = 0xF ∧ writable s.params (addr - s.params.base)) →
      ∃ f, hostWrite addr bytes enables w s = .fault f)

/-- R70: a write to the GCT, LCT or IN_MEM window while BUSY = 1 sets REJ and REJ_MEM and does nothing else. -/
def Obligations.BusyWindowWrites : Prop :=
  ∀ (s : State) (off : Nat) (w : Word), busy s = true → writable s.params off → 0x100 ≤ off → off % 4 = 0 →
    writeWord s off w = .next { s with status := { s.status with rej := true, rejMem := true } }

/-! Command control. -/

/-- R221: every CMD word but the exact SOFT_RESET and ABORT words is rejected while BUSY = 1: REJ and REJ_OP, nothing
else. -/
def Obligations.BusyRejection : Prop :=
  ∀ (s : State) (w : Word), busy s = true → w ≠ 0x00000001 → w ≠ 0x00000006 →
    exec (decodeCmd w) s = .next { s with status := { s.status with rej := true, rejOp := w.extractLsb' 0 4 } }
    ∧ writeWord s 0x004 w = .next { s with status := { s.status with rej := true, rejOp := w.extractLsb' 0 4 } }

/-- R227, R270: SOFT_RESET in every state: every register as after reset, the Engine idle, IN_MEM, GCT and LCT kept. That
CODE_START is 0 with the LZW engine registers is the model's (log 6, log 13). -/
def Obligations.SoftResetEffect : Prop :=
  ∀ s : State, ∃ t, exec .softReset s = .next t
    ∧ (∀ off, off < 0x100 → off % 4 = 0 → regRead off t = if off = 0x000 then 0x4C5A5731 else 0)
    ∧ t.eng = .idle ∧ t.lzw = LzwRegs.reset ∧ t.indexLatch = IndexLatch.reset
    ∧ (∀ a, inByte t a = inByte s a) ∧ (∀ i, gctEntry t i = gctEntry s i) ∧ (∀ i, lctEntry t i = lctEntry s i)
    ∧ t.params = s.params ∧ t.host = s.host

/-- R229: ABORT sets ABORT_REQ while an operation runs and does nothing while none does. -/
def Obligations.AbortRequest : Prop :=
  ∀ s : State,
    (busy s = true → exec .abort s = .next { s with status := { s.status with abortReq := true } })
    ∧ (busy s = false → exec .abort s = .next s)

/-- R230, R231: with ABORT_REQ = 1 the next Engine step ends the operation with ABORTED and does none of its own work;
which validity flags it clears depends on the operation. -/
def Obligations.EndByAbort : Prop :=
  ∀ s : State, busy s = true → s.status.abortReq = true →
    ∃ t, engineStep s = .next t
      ∧ t = { s with
          eng := .idle
          status := { failed 0x0B s.status with
            abortReq := false, canvasValid := t.status.canvasValid, framePending := t.status.framePending }
          errInfo0 := 0
          errInfo1 := 0 }
      ∧ (s.eng = .init ∨ s.eng = .lzw → t.status.canvasValid = s.status.canvasValid)
      ∧ (s.eng ≠ .init → s.eng ≠ .lzw → t.status.canvasValid = false)
      ∧ (s.eng = .compV ∨ s.eng = .compS ∨ s.eng = .compW → t.status.framePending = false)
      ∧ (s.eng = .init ∨ s.eng = .lzw ∨ s.eng = .disp → t.status.framePending = s.status.framePending)

/-- R93, R225: an illegal word written while idle ends at once with ILLEGAL_COMMAND: LAST_OP, the error report with the
whole word, nothing else. -/
def Obligations.IllegalCommands : Prop :=
  ∀ (i : Instr) (w : Word) (s : State), isIllegal i = true → encode i = .cmd w → busy s = false →
    exec i s = .next { s with
      status := failed 0x0A { s.status with lastOp := w.extractLsb' 0 4 }, errInfo0 := w, errInfo1 := 0 }

/-- R223: after the access that accepts a request, exactly one of BUSY, DONE and ERR is 1; the error report is clear
but for an error; LAST_OP is the OP; REJ, REJ_OP, REJ_MEM, ABORT_REQ and every read-write register are unchanged. -/
def Obligations.AcceptanceOutcome : Prop :=
  ∀ (s : State) (w : Word), busy s = false → w ≠ 0x00000001 → w ≠ 0x00000006 →
    ∃ t, exec (decodeCmd w) s = .next t
      ∧ t.status.lastOp = w.extractLsb' 0 4 ∧ t.status.rej = s.status.rej ∧ t.status.rejOp = s.status.rejOp
      ∧ t.status.rejMem = s.status.rejMem ∧ t.status.abortReq = s.status.abortReq ∧ t.regs = s.regs
      ∧ ((busy t = true ∧ t.status.done = false ∧ t.status.err = false)
          ∨ (busy t = false ∧ t.status.done = true ∧ t.status.err = false)
          ∨ (busy t = false ∧ t.status.done = false ∧ t.status.err = true))
      ∧ (t.status.err = false → t.status.errCode = 0 ∧ t.errInfo0 = 0 ∧ t.errInfo1 = 0)
      ∧ (t.status.err = true → t.status.errCode ≠ 0)

/-- R171, R173, R224: CANVAS_INIT accepted while idle: its two checks in order, and what it latches (the draw of the
cells beyond the canvas is the model's, log 5). -/
def Obligations.CanvasInitAcceptance : Prop :=
  ∀ s : State, busy s = false →
    let cw := s.regs.canvasSize.toNat % 65536
    let ch := s.regs.canvasSize.toNat / 65536
    let sizeOk := legalSize s.params.maxDim s.params.canvasPixels cw ch
    let backgroundOk := s.regs.gctCfg.getLsbD 0 = true ∧ s.regs.bgIndex.toNat < 2 ^ (s.regs.gctCfg.toNat / 2 + 1)
    let st := { accepted 0x2 s.status with canvasValid := false, framePending := false }
    (¬ sizeOk → exec .canvasInit s = .next { s with
      status := failed 0x05 st, errInfo0 := s.regs.canvasSize, errInfo1 := 0, progress := 0 })
    ∧ (sizeOk → ¬ backgroundOk → exec .canvasInit s = .next { s with
      status := failed 0x04 st, errInfo0 := 0xFFFFFFFF, errInfo1 := s.regs.bgIndex.setWidth 32, progress := 0 })
    ∧ (sizeOk → backgroundOk → ∃ t, exec .canvasInit s = .next t
      ∧ t = { s with
          eng := .init
          status := st
          errInfo0 := 0
          errInfo1 := 0
          progress := 0
          work := { s.work with n := 0 }
          canvasLatch := t.canvasLatch
          canvasDraw := t.canvasDraw
          draws := t.draws }
      ∧ t.canvasLatch.cw.toNat = cw ∧ t.canvasLatch.ch.toNat = ch
      ∧ t.canvasLatch.bgRgb = gctEntry s s.regs.bgIndex.toNat)

/-- R130, R131, R132, R224: LZW_DECODE accepted while idle: its three checks in order, what it latches, and the code
table it starts with. -/
def Obligations.LzwDecodeAcceptance : Prop :=
  ∀ s : State, busy s = false →
    let fw := s.regs.frameSize.toNat % 65536
    let fh := s.regs.frameSize.toNat / 65536
    let m := s.regs.lzwMin.toNat
    let sizeOk := legalSize s.params.maxDim s.params.idxMemBytes fw fh
    let codeSizeOk := 2 ≤ m ∧ m ≤ 8
    let rangeOk := s.regs.inBase.toNat + s.regs.inLen.toNat ≤ s.params.inMemBytes
    let st := { accepted 0x3 s.status with idxValid := false }
    (¬ sizeOk → exec .lzwDecode s = .next { s with
      status := failed 0x05 st, errInfo0 := s.regs.frameSize, errInfo1 := 1, bitPos := 0, pixCount := 0 })
    ∧ (sizeOk → ¬ codeSizeOk → exec .lzwDecode s = .next { s with
      status := failed 0x06 st, errInfo0 := BitVec.ofNat 32 m, errInfo1 := 0, bitPos := 0, pixCount := 0 })
    ∧ (sizeOk → codeSizeOk → ¬ rangeOk → exec .lzwDecode s = .next { s with
      status := failed 0x07 st, errInfo0 := s.regs.inBase, errInfo1 := s.regs.inLen, bitPos := 0, pixCount := 0 })
    ∧ (sizeOk → codeSizeOk → rangeOk → ∃ t, exec .lzwDecode s = .next t
      ∧ t = { s with
          eng := .lzw
          status := st
          errInfo0 := 0
          errInfo1 := 0
          bitPos := 0
          pixCount := 0
          indexLatch := t.indexLatch
          lzw := t.lzw
          table := t.table }
      ∧ t.indexLatch.idxW.toNat = fw ∧ t.indexLatch.idxH.toNat = fh ∧ t.indexLatch.lm = s.regs.lzwMin
      ∧ t.indexLatch.lbase = s.regs.inBase ∧ t.indexLatch.llen = s.regs.inLen
      ∧ initialises s t m)

/-- R175, R176, R224: COMPOSE accepted while idle: its two checks in order, and what it latches, the active table
among it; FRAME_SIZE is not read. -/
def Obligations.ComposeAcceptance : Prop :=
  ∀ s : State, busy s = false →
    let flags := s.regs.frameFlags.toNat
    let ready := s.status.canvasValid = true ∧ s.status.idxValid = true ∧ s.status.framePending = false
    let st := accepted 0x4 s.status
    (¬ ready → ∃ t, exec .compose s = .next t
      ∧ t = { s with status := failed 0x09 st, errInfo0 := t.errInfo0, errInfo1 := 0x4 }
      ∧ t.errInfo0.toNat = 4 * s.status.framePending.toNat + 2 * s.status.idxValid.toNat + s.status.canvasValid.toNat)
    ∧ (ready → 3 < flags / 64 → exec .compose s = .next { s with
      status := failed 0x08 st, errInfo0 := BitVec.ofNat 32 (flags / 64), errInfo1 := 0 })
    ∧ (ready → flags / 64 ≤ 3 → ∃ t, exec .compose s = .next t
      ∧ t = { s with
          eng := .compV
          status := st
          errInfo0 := 0
          errInfo1 := 0
          progress := 0
          work := { s.work with s := 0 }
          frameLatch := t.frameLatch }
      ∧ t.frameLatch.left.toNat = s.regs.framePos.toNat % 65536
      ∧ t.frameLatch.top.toNat = s.regs.framePos.toNat / 65536
      ∧ t.frameLatch.w = s.indexLatch.idxW ∧ t.frameLatch.h = s.indexLatch.idxH
      ∧ t.frameLatch.interlace = s.regs.frameFlags.getLsbD 0 ∧ t.frameLatch.ten = s.regs.frameFlags.getLsbD 5
      ∧ t.frameLatch.disp.toNat = flags / 64 ∧ t.frameLatch.tidx = s.regs.transpIndex
      ∧ (s.regs.frameFlags.getLsbD 1 = true →
          t.frameLatch.tsel = .localTable ∧ t.frameLatch.tsize.toNat = 2 ^ (flags / 4 % 8 + 1))
      ∧ (s.regs.frameFlags.getLsbD 1 = false → s.regs.gctCfg.getLsbD 0 = true →
          t.frameLatch.tsel = .globalTable ∧ t.frameLatch.tsize.toNat = 2 ^ (s.regs.gctCfg.toNat / 2 + 1))
      ∧ (s.regs.frameFlags.getLsbD 1 = false → s.regs.gctCfg.getLsbD 0 = false →
          t.frameLatch.tsel = .noTable ∧ t.frameLatch.tsize.toNat = 0))

/-- R190, R191, R192, R196: DISPOSE accepted while idle: its check, the end at acceptance when the disposal is 0 or 1
or REGION is empty, else the walk over REGION begins. -/
def Obligations.DisposeAcceptance : Prop :=
  ∀ s : State, busy s = false →
    let ready := s.status.framePending = true ∧ s.status.canvasValid = true
    let nothing := s.frameLatch.disp.toNat ≤ 1 ∨ ∀ x y, inRegion s.canvasLatch s.frameLatch x y = false
    let st := accepted 0x5 s.status
    (¬ ready → ∃ t, exec .dispose s = .next t
      ∧ t = { s with status := failed 0x09 st, errInfo0 := t.errInfo0, errInfo1 := 0x5 }
      ∧ t.errInfo0.toNat = 4 * s.status.framePending.toNat + 2 * s.status.idxValid.toNat + s.status.canvasValid.toNat)
    ∧ (ready → nothing → exec .dispose s = .next { s with
      status := finished { st with framePending := false }, errInfo0 := 0, errInfo1 := 0, progress := 0 })
    ∧ (ready → ¬ nothing → exec .dispose s = .next { s with
      eng := .disp
      status := { st with framePending := false }
      errInfo0 := 0
      errInfo1 := 0
      progress := 0
      work := { s.work with x := s.frameLatch.left.toNat, y := s.frameLatch.top.toNat } })

/-- R70, R74, R221, R283: while an operation runs, no Host access but a SOFT_RESET or an ABORT, whatever it reads or
writes, changes anything the operation's steps read or write. -/
def Obligations.HostCannotDisturb : Prop :=
  ∀ (s t : State) (e : Event), busy s = true → harmless s.params e = true → runEvent e s = .next t →
    engineView t = engineView s

/-- R74, R224: what an Engine step does depends only on the latches, the engine's registers and the memories: two
states that agree on these agree on them after a step, whatever the configuration registers hold. -/
def Obligations.EngineReadsOnlyItsView : Prop :=
  ∀ s s' : State, engineView s = engineView s' →
    ∃ t t', engineStep s = .next t ∧ engineStep s' = .next t' ∧ engineView t = engineView t'

/-! The LZW code classes. -/

/-- R132, R133: CLEAR initialises the table and emits nothing. -/
def Obligations.ClearCode : Prop :=
  ∀ (s : State) (c : Code), legalMinCode s.indexLatch.lm.toNat = true →
    ∃ t, exec (.lzwClear c) s = .next t
      ∧ t = { s with eng := t.eng, status := t.status, lzw := t.lzw, table := t.table }
      ∧ initialises s t s.indexLatch.lm.toNat ∧ endsWhenFull s t

/-- R134, R140, R141: END and INVALID end the operation with their errors and detail words; no index is emitted, no
slot is built, PREV stays. (That it does not finish as well in a state with PIX_COUNT = N is the raise's "the rest of
the step is not performed", R242.) -/
def Obligations.EndAndInvalidCodes : Prop :=
  ∀ (s : State) (c : Code),
    exec (.lzwEnd c) s = .next { s with
      eng := .idle, status := failed 0x03 s.status, errInfo0 := s.pixCount, errInfo1 := s.lzw.codeStart }
    ∧ ∃ t, exec (.lzwInvalid c) s = .next t
      ∧ t = { s with
          eng := .idle, status := failed 0x02 s.status, errInfo0 := t.errInfo0, errInfo1 := s.lzw.codeStart }
      ∧ t.errInfo0.toNat = c.toNat

/-- R135, R142, R144: FIRST emits its own value and becomes the previous code; the table stays. -/
def Obligations.FirstCode : Prop :=
  ∀ (s : State) (c : Code), s.pixCount.toNat ≤ outLength s →
    ∃ t, exec (.lzwFirst c) s = .next t
      ∧ t = { s with
          eng := t.eng
          status := t.status
          idxMem := t.idxMem
          pixCount := t.pixCount
          lzw := { s.lzw with prev := c, prevValid := true } }
      ∧ emits s t [BitVec.ofNat 8 c.toNat] ∧ endsWhenFull s t

/-- R136, R138, R139, R142, R144: HIT emits its string, adds the slot (PREV, first index of it) while the table is not
full, and becomes the previous code. -/
def Obligations.HitCode : Prop :=
  ∀ (s : State) (c : Code), s.pixCount.toNat ≤ outLength s →
    ∃ t, exec (.lzwHit c) s = .next t
      ∧ t = { s with
          eng := t.eng
          status := t.status
          idxMem := t.idxMem
          pixCount := t.pixCount
          table := t.table
          lzw := { s.lzw with prev := c, prevValid := true, nextFree := t.lzw.nextFree, width := t.lzw.width } }
      ∧ emits s t (strOf s c) ∧ addsSlot s t s.lzw.prev ((strOf s c).headD 0) ∧ endsWhenFull s t

/-- R137, R138, R142, R144: KWKWK emits the previous string and its first index again, builds its own slot, and becomes
the previous code. -/
def Obligations.KwkwkCode : Prop :=
  ∀ (s : State) (c : Code), s.pixCount.toNat ≤ outLength s →
    ∃ t, exec (.lzwKwkwk c) s = .next t
      ∧ t = { s with
          eng := t.eng
          status := t.status
          idxMem := t.idxMem
          pixCount := t.pixCount
          table := t.table
          lzw := { s.lzw with prev := c, prevValid := true, nextFree := t.lzw.nextFree, width := t.lzw.width } }
      ∧ emits s t (strOf s s.lzw.prev ++ [(strOf s s.lzw.prev).headD 0])
      ∧ addsSlot s t s.lzw.prev ((strOf s s.lzw.prev).headD 0) ∧ endsWhenFull s t

/-- R55, R136, R137: after a HIT or KWKWK the new slot's string is the previous code's string and the first index of
what was emitted (for KWKWK it is the string emitted), and every initialised slot keeps its string. -/
def Obligations.NewSlotString : Prop :=
  ∀ (s : State) (c : Code), LzwRunning s → s.lzw.nextFree.toNat < 4096 →
    ((Instr.lzwHit c).fits (codeCtx s) = true →
      ∃ t, exec (.lzwHit c) s = .next t
        ∧ strOf t (BitVec.ofNat 12 s.lzw.nextFree.toNat) = strOf s s.lzw.prev ++ [(strOf s c).headD 0]
        ∧ ∀ k : Code, initialised s k.toNat → strOf t k = strOf s k)
    ∧ ((Instr.lzwKwkwk c).fits (codeCtx s) = true →
      ∃ t, exec (.lzwKwkwk c) s = .next t
        ∧ strOf t c = strOf s s.lzw.prev ++ [(strOf s s.lzw.prev).headD 0]
        ∧ ∀ k : Code, initialised s k.toNat → strOf t k = strOf s k)

/-- R55, R56: while LZW_DECODE runs, the string of a root is the root itself, that of a built slot is its PREFIX's string
and its SUFFIX; the string of an initialised slot is non-empty, no longer than the slot's number allows, and made of
root indices. -/
def Obligations.SlotStrings : Prop :=
  ∀ (s : State) (k : Code), LzwRunning s → initialised s k.toNat →
    (k.toNat < 2 ^ s.indexLatch.lm.toNat → strOf s k = [BitVec.ofNat 8 k.toNat])
    ∧ (2 ^ s.indexLatch.lm.toNat ≤ k.toNat →
        ∃ q, (slotAt s k.toNat).prefixCode = some q ∧ strOf s k = strOf s q ++ [(slotAt s k.toNat).suffixIdx]
          ∧ (strOf s k).length ≤ k.toNat - 2 ^ s.indexLatch.lm.toNat)
    ∧ strOf s k ≠ []
    ∧ ∀ v ∈ strOf s k, v.toNat < 2 ^ s.indexLatch.lm.toNat

/-- R122, R146: an LZW step that no abort pre-empts ends the operation or moves BIT_POS on by WIDTH, which is 3 to 12,
inside the stream. -/
def Obligations.LzwStepProgress : Prop :=
  ∀ s : State, LzwInv s → s.eng = .lzw → s.status.abortReq = false →
    ∃ t, engineStep s = .next t
      ∧ (t.eng = .idle
        ∨ (t.eng = .lzw ∧ t.bitPos.toNat = s.bitPos.toNat + s.lzw.width.toNat ∧ 3 ≤ s.lzw.width.toNat
          ∧ s.lzw.width.toNat ≤ 12 ∧ t.bitPos.toNat ≤ 8 * t.indexLatch.llen.toNat))

/-- R143, R144, R146, R232: a running LZW_DECODE left to the Engine ends within (8 × LLEN − BIT_POS) div 3 + 1 steps,
either finished with every index stored and IDX_VALID = 1, or with one of its three errors and IDX_VALID = 0. -/
def Obligations.LzwTerminates : Prop :=
  ∀ s : State, RunInv s → s.eng = .lzw → s.status.abortReq = false → s.host.events = [] →
    ∃ n t, n ≤ (8 * s.indexLatch.llen.toNat - s.bitPos.toNat) / 3 + 1 ∧ core.run n s = .next t ∧ t.eng = .idle
      ∧ ((t.status.done = true ∧ t.status.err = false ∧ t.status.idxValid = true ∧ t.pixCount.toNat = outLength t)
        ∨ (t.status.done = false ∧ t.status.err = true ∧ t.status.idxValid = false
          ∧ (t.status.errCode = 0x01 ∨ t.status.errCode = 0x02 ∨ t.status.errCode = 0x03)))

/-- R95, R120, R130 to R135, R144: LZW_DECODE of the stream that codes pixels one by one, a ClearCode before each, at
any legal minCodeSize, stores exactly those pixels and finishes after two steps for each. -/
def Obligations.PlainStreamDecodes : Prop :=
  ∀ (s : State) (m : Nat) (pixels : List Byte), quiet s → s.params.legal = true →
    2 ≤ m → m ≤ 8 → s.regs.lzwMin.toNat = m → (∀ v ∈ pixels, v.toNat < 2 ^ m) →
    legalSize s.params.maxDim s.params.idxMemBytes (s.regs.frameSize.toNat % 65536) (s.regs.frameSize.toNat / 65536) →
    pixels.length = (s.regs.frameSize.toNat % 65536) * (s.regs.frameSize.toNat / 65536) →
    s.regs.inLen.toNat = (packCodes (plainCodes m pixels)).length →
    s.regs.inBase.toNat + s.regs.inLen.toNat ≤ s.params.inMemBytes →
    (∀ k, k < s.regs.inLen.toNat →
      inByte s (s.regs.inBase.toNat + k) = (packCodes (plainCodes m pixels)).getD k 0) →
    ∃ u t, exec .lzwDecode s = .next u ∧ core.run (2 * pixels.length) u = .next t ∧ t.eng = .idle
      ∧ t.status.done = true ∧ t.status.err = false ∧ t.status.idxValid = true
      ∧ ∀ k, k < pixels.length → idxByte t k = pixels.getD k 0

/-! The compositor. -/

/-- R171, R172, R232: a CANVAS_INIT whose checks pass, left to the Engine, runs CW × CH steps and finishes with
CANVAS_VALID = 1, every cell of the canvas the background colour and every cell beyond it untouched. -/
def Obligations.CanvasInitFills : Prop :=
  ∀ s : State, quiet s →
    let cw := s.regs.canvasSize.toNat % 65536
    let ch := s.regs.canvasSize.toNat / 65536
    legalSize s.params.maxDim s.params.canvasPixels cw ch →
    s.regs.gctCfg.getLsbD 0 = true → s.regs.bgIndex.toNat < 2 ^ (s.regs.gctCfg.toNat / 2 + 1) →
    ∃ u t, exec .canvasInit s = .next u ∧ core.run (cw * ch) u = .next t
      ∧ t = { u with
          eng := .idle
          status := finished { u.status with canvasValid := true }
          progress := t.progress
          work := t.work
          canvas := t.canvas }
      ∧ t.progress.toNat = cw * ch
      ∧ ∀ n, canvasCell t n = if n < cw * ch then gctEntry s s.regs.bgIndex.toNat else canvasCell s n

/-- R175 to R187, R232: a COMPOSE that is accepted and whose indices all have a table entry, left to the Engine, runs
2N + 1 steps and finishes with FRAME_PENDING = 1. The drawn pixels' cells hold their colours, every other cell what it
held before, and SNAP holds the canvas as it was before. -/
def Obligations.ComposeDraws : Prop :=
  ∀ s : State, quiet s → CompositorInv s →
    s.status.canvasValid = true → s.status.idxValid = true → s.status.framePending = false →
    (disposalOf s.regs).toNat ≤ 3 →
    ∃ u, exec .compose s = .next u ∧ ((∀ n, n < outLength s → inTable u.frameLatch (idxByte s n) = true) →
      ∃ t, core.run (2 * outLength s + 1) u = .next t
        ∧ t = { u with
            eng := .idle
            status := finished { u.status with framePending := true }
            progress := t.progress
            work := t.work
            canvas := t.canvas
            snap := t.snap }
        ∧ t.progress.toNat = 2 * outLength s
        ∧ (∀ k, k < outLength s → drawn u k →
            canvasCell t (pixelCell u k) = tableColour u (idxByte u k).toNat)
        ∧ (∀ n, (∀ k, k < outLength s → drawn u k → n ≠ pixelCell u k) → canvasCell t n = canvasCell s n)
        ∧ (∀ n, snapCell t n = if n < canvasArea s then canvasCell s n else snapCell s n))

/-- R178, R179, R244: a COMPOSE with an index that has no table entry ends with INVALID_IMAGE for the lowest such
stream index, transparent and off-canvas indices included, with the canvas, SNAP and every validity flag as before. -/
def Obligations.ComposeRefusesImage : Prop :=
  ∀ (s : State) (k : Nat), quiet s → CompositorInv s →
    s.status.canvasValid = true → s.status.idxValid = true → s.status.framePending = false →
    (disposalOf s.regs).toNat ≤ 3 → k < outLength s →
    ∃ u, exec .compose s = .next u ∧ (inTable u.frameLatch (idxByte s k) = false →
      (∀ n, n < k → inTable u.frameLatch (idxByte s n) = true) →
      ∃ t, core.run (k + 1) u = .next t
        ∧ t = { u with
            eng := .idle
            status := failed 0x04 u.status
            errInfo0 := t.errInfo0
            errInfo1 := t.errInfo1
            progress := t.progress
            work := t.work }
        ∧ t.errInfo0.toNat = k ∧ t.errInfo1.toNat = (idxByte s k).toNat ∧ t.progress.toNat = k
        ∧ t.status.canvasValid = true ∧ t.status.framePending = false ∧ t.status.idxValid = true
        ∧ t.canvas = s.canvas ∧ t.snap = s.snap)

/-- R190, R193, R194, R196, R232: a DISPOSE that restores, left to the Engine, runs as many steps as REGION has cells
and finishes; every cell of REGION holds the background colour (disposal 2) or SNAP's copy (disposal 3), every other
cell what it held. -/
def Obligations.DisposeRestores : Prop :=
  ∀ s : State, quiet s → s.status.framePending = true → s.status.canvasValid = true →
    s.frameLatch.disp = 2 ∨ s.frameLatch.disp = 3 → 0 < regionSize s →
    ∃ u t, exec .dispose s = .next u ∧ core.run (regionSize s) u = .next t
      ∧ t = { u with
          eng := .idle
          status := finished u.status
          progress := t.progress
          work := t.work
          canvas := t.canvas }
      ∧ t.status.framePending = false ∧ t.status.canvasValid = true
      ∧ t.progress.toNat = regionSize s
      ∧ (∀ x y, inRegion s.canvasLatch s.frameLatch x y = true →
          canvasCell t (cellOf s x y) =
            if s.frameLatch.disp = 2 then s.canvasLatch.bgRgb else snapCell s (cellOf s x y))
      ∧ (∀ n, (∀ x y, inRegion s.canvasLatch s.frameLatch x y = true → n ≠ cellOf s x y) →
          canvasCell t n = canvasCell s n)

/-- R185, R194: a COMPOSE with disposal 3 and the DISPOSE after it leave every cell of the canvas as it was before the
COMPOSE. -/
def Obligations.RestoreToPrevious : Prop :=
  ∀ s : State, quiet s → CompositorInv s →
    s.status.canvasValid = true → s.status.idxValid = true → s.status.framePending = false →
    disposalOf s.regs = 3 →
    ∃ u, exec .compose s = .next u ∧ ((∀ n, n < outLength s → inTable u.frameLatch (idxByte s n) = true) →
      ∃ t v z, core.run (2 * outLength s + 1) u = .next t ∧ exec .dispose t = .next v
        ∧ core.run (regionSize t) v = .next z ∧ z.eng = .idle ∧ z.status.done = true ∧ z.status.err = false
        ∧ ∀ n, canvasCell z n = canvasCell s n)

/-- R181: ILROW takes the stream's rows one to one onto the frame's rows, pass after pass, rising within a pass. -/
def Obligations.InterlaceRows : Prop :=
  ∀ h : Nat,
    (∀ k, k < h → ilrow k h < h)
    ∧ (∀ r, r < h → ∃ k, k < h ∧ ilrow k h = r)
    ∧ (∀ k k', k < k' → k' < h →
        passOf (ilrow k h) < passOf (ilrow k' h)
        ∨ (passOf (ilrow k h) = passOf (ilrow k' h) ∧ ilrow k h < ilrow k' h))

/-- R177, R182: no two stream indices of a frame inside the canvas are written to the same cell, interlaced or not. -/
def Obligations.PixelsDistinct : Prop :=
  ∀ (s : State) (k k' : Nat), k < frameArea s.frameLatch → k' < frameArea s.frameLatch →
    inside s.canvasLatch s.frameLatch k = true → inside s.canvasLatch s.frameLatch k' = true →
    pixelCell s k = pixelCell s k' → k = k'

/-! The whole machine. -/

/-- R50 to R54, R130, R170, R284, R288: which instruction may change what: the Host's memories and registers none but
SOFT_RESET's reset of the registers; the canvas latch CANVAS_INIT alone; the frame latch COMPOSE alone; IDX_MEM, the
code table and the index latch the LZW instructions alone; and these never the canvas, SNAP or FRAME_PENDING. -/
def Obligations.ResourceWriters : Prop :=
  ∀ (i : Instr) (s : State), ∃ t, exec i s = .next t
    ∧ t.params = s.params ∧ t.inMem = s.inMem ∧ t.gct = s.gct ∧ t.lct = s.lct ∧ t.host = s.host
    ∧ (i ≠ .softReset →
        t.regs = s.regs ∧ t.canvas = s.canvas ∧ t.snap = s.snap
        ∧ (i ≠ .canvasInit → t.canvasLatch = s.canvasLatch)
        ∧ (i ≠ .compose → t.frameLatch = s.frameLatch)
        ∧ (isLzw i = false → t.idxMem = s.idxMem ∧ t.table = s.table ∧ t.indexLatch = s.indexLatch ∧ t.lzw = s.lzw
            ∧ t.bitPos = s.bitPos ∧ t.pixCount = s.pixCount)
        ∧ (isLzw i = true → t.status.canvasValid = s.status.canvasValid
            ∧ t.status.framePending = s.status.framePending ∧ t.progress = s.progress))

/-- R52, R70, R226, R253, R256, R288: the Engine has a step in every state, takes none while idle, and never writes
IN_MEM, GCT, LCT or a configuration register. -/
def Obligations.EngineAlwaysSteps : Prop :=
  ∀ s : State, ∃ t, engineStep s = .next t
    ∧ (s.eng = .idle → t = s)
    ∧ t.params = s.params ∧ t.regs = s.regs ∧ t.inMem = s.inMem ∧ t.gct = s.gct ∧ t.lct = s.lct ∧ t.host = s.host

/-- R63, R253: a step stops only on a bus error of a Host access; no instruction is refused. -/
def Obligations.OnlyBusErrorsStop : Prop :=
  ∀ s : State, (∃ t, step s = .next t)
    ∨ ∃ f rest, step s = .fault f
      ∧ ((∃ addr bytes, s.host.events = .read addr bytes :: rest)
        ∨ ∃ addr bytes enables w, s.host.events = .write addr bytes enables w :: rest)

/-- R240, R243: the caller kind a Host reads from STATUS after each error, and after a rejection without an error. That
an error's kind wins where REJ = 1 as well is the model's choice (log 20), and so is that every REJ = 1 with ERR = 0
counts as a rejection of the Host's own request (log 25). -/
def Obligations.CallerKinds : Prop :=
  (∀ (s : State) (e : ErrorCode) (code : Byte) (kind : CallerKind), (e, code, kind) ∈ kindTable →
    s.status.err = true → s.status.errCode = code → errorByte e = code
      ∧ callerKindOfStatus (statusWord s) = some kind)
  ∧ (∀ e : ErrorCode, ∃ code kind, (e, code, kind) ∈ kindTable)
  ∧ ∀ s : State, s.status.err = false → s.status.rej = true →
      callerKindOfStatus (statusWord s) = some .alreadyProcessing

/-- R103, R104: LOADB run by an idle block's Host leaves its bytes in IN_MEM at its offset, the missing ones of the last
word 0x00, and every other byte as it was. -/
def Obligations.LoadBytes : Prop :=
  ∀ (s : State) (o : Nat) (bytes : List Byte), s.params.legal = true → busy s = false → o % 4 = 0 →
    o + 4 * ((bytes.length + 3) / 4) ≤ s.params.inMemBytes →
    s.host.events = loadB s.params.base o bytes →
    ∃ t, core.run ((bytes.length + 3) / 4) s = .next t
      ∧ t = { s with inMem := t.inMem, host := { s.host with events := [] } }
      ∧ (∀ k, k < 4 * ((bytes.length + 3) / 4) → inByte t (o + k) = bytes.getD k 0)
      ∧ (∀ a, a < o ∨ o + 4 * ((bytes.length + 3) / 4) ≤ a → inByte t a = inByte s a)

/-- R25, R141, R220, R226: a step whose event is a write to CMD runs the word's instruction; a step of the Engine in
ENG_STATE = LZW with enough bits left runs the code's instruction on the state NEXTCODE leaves. -/
def Obligations.StepRunsInstruction : Prop :=
  (∀ (s : State) (w : Word) (rest : List Event), s.host.events = .write (s.params.base + 0x004) 4 0xF w :: rest →
    step s = exec (decodeCmd w) { s with host := { s.host with events := rest } })
  ∧ ∀ s : State, s.host.events = [] → s.eng = .lzw → s.status.abortReq = false →
      s.lzw.width.toNat ≤ 8 * s.indexLatch.llen.toNat - s.bitPos.toNat →
      step s = exec (decodeCode (codeCtx s) (codeAtCursor s))
        { s with lzw := { s.lzw with codeStart := s.bitPos }, bitPos := s.bitPos + s.lzw.width.setWidth 32 }

/-! Invariants. -/

/-- The reset state satisfies the invariant of runs (R26, R56, R77, R231, R270). -/
def Obligations.ResetInvariant : Prop := RunInv State.reset

/-- R26, R48, R49, R230, R231: every step keeps the invariant of STATUS and ENG_STATE: at most one of BUSY, DONE and
ERR, ABORT_REQ only while BUSY, the validity flags each operation runs with. -/
def Obligations.ControlInvariant : Prop :=
  ∀ s t : State, ControlInv s → step s = .next t → ControlInv t

/-- R53, R62, R71, R77: every step keeps every memory free of cells beyond its capacity, and the bounds this rests on, so
no Engine write is out of bounds; and it keeps every memory's list of cells in the canonical form, which is the model's
choice (log 3). -/
def Obligations.StorageInvariant : Prop :=
  ∀ s t : State, StorageInv s → step s = .next t → StorageInv t

/-- R56, R97, R98, R122, R124, R145: every step keeps the invariant of a running LZW_DECODE: the code table's shape, the
width schedule, the cursor inside the stream, indices below 2^M. -/
def Obligations.LzwInvariant : Prop :=
  ∀ s t : State, LzwInv s → step s = .next t → LzwInv t

/-- R46, R172, R178, R182, R193: every step keeps the compositor's counters inside the canvas, the frame and REGION, and
equal to PROGRESS, and every index a running COMPOSE has validated in its table. -/
def Obligations.CompositorInvariant : Prop :=
  ∀ s t : State, CompositorInv s → step s = .next t → CompositorInv t

end
end

