-- ==== Sys2Proof/Laws/Flags.lean ====
section
/-! SUPPORT. The laws of the register words: what each of their fields reads as (R26, R40, R43 to R45). -/

namespace Sys2Proof.Machine

/-- The low part of two words put together. -/
theorem extractLsb'_append_low {m n len : Nat} (hi : BitVec m) (lo : BitVec n) (start : Nat) (h : start + len ≤ n) :
    (hi ++ lo).extractLsb' start len = lo.extractLsb' start len := by
  ext i hl
  simp only [BitVec.getElem_extractLsb', BitVec.getLsbD_append, if_pos (show start + i < n by omega)]

/-- The high part of two words put together. -/
theorem extractLsb'_append_high {m n len : Nat} (hi : BitVec m) (lo : BitVec n) (start : Nat) (h : n ≤ start) :
    (hi ++ lo).extractLsb' start len = hi.extractLsb' (start - n) len := by
  ext i hl
  simp only [BitVec.getElem_extractLsb', BitVec.getLsbD_append, if_neg (show ¬ start + i < n by omega)]
  rw [show start + i - n = start - n + i by omega]

/-! STATUS. -/

variable (s : State)

theorem statusWord_busy : (statusWord s).getLsbD 0 = busy s := by
  unfold statusWord; simp only [BitVec.getLsbD_append]; simp

@[simp] theorem statusWord_busy' : (statusWord s)[0] = busy s := statusWord_busy s

theorem statusWord_done : (statusWord s).getLsbD 1 = s.status.done := by
  unfold statusWord; simp only [BitVec.getLsbD_append]; simp

@[simp] theorem statusWord_done' : (statusWord s)[1] = s.status.done := statusWord_done s

theorem statusWord_err : (statusWord s).getLsbD 2 = s.status.err := by
  unfold statusWord; simp only [BitVec.getLsbD_append]; simp

@[simp] theorem statusWord_err' : (statusWord s)[2] = s.status.err := statusWord_err s

theorem statusWord_rej : (statusWord s).getLsbD 3 = s.status.rej := by
  unfold statusWord; simp only [BitVec.getLsbD_append]; simp

@[simp] theorem statusWord_rej' : (statusWord s)[3] = s.status.rej := statusWord_rej s

theorem statusWord_canvasValid : (statusWord s).getLsbD 16 = s.status.canvasValid := by
  unfold statusWord; simp only [BitVec.getLsbD_append]; simp

@[simp] theorem statusWord_canvasValid' : (statusWord s)[16] = s.status.canvasValid := statusWord_canvasValid s

theorem statusWord_idxValid : (statusWord s).getLsbD 17 = s.status.idxValid := by
  unfold statusWord; simp only [BitVec.getLsbD_append]; simp

@[simp] theorem statusWord_idxValid' : (statusWord s)[17] = s.status.idxValid := statusWord_idxValid s

theorem statusWord_framePending : (statusWord s).getLsbD 18 = s.status.framePending := by
  unfold statusWord; simp only [BitVec.getLsbD_append]; simp

@[simp] theorem statusWord_framePending' : (statusWord s)[18] = s.status.framePending := statusWord_framePending s

theorem statusWord_abortReq : (statusWord s).getLsbD 19 = s.status.abortReq := by
  unfold statusWord; simp only [BitVec.getLsbD_append]; simp

@[simp] theorem statusWord_abortReq' : (statusWord s)[19] = s.status.abortReq := statusWord_abortReq s

theorem statusWord_rejMem : (statusWord s).getLsbD 24 = s.status.rejMem := by
  unfold statusWord; simp only [BitVec.getLsbD_append]; simp

@[simp] theorem statusWord_rejMem' : (statusWord s)[24] = s.status.rejMem := statusWord_rejMem s

@[simp] theorem statusWord_lastOp : (statusWord s).extractLsb' 4 4 = s.status.lastOp := by
  unfold statusWord
  simp (disch := omega) only [extractLsb'_append_low, extractLsb'_append_high]
  simp

@[simp] theorem statusWord_errCode : (statusWord s).extractLsb' 8 8 = s.status.errCode := by
  unfold statusWord
  simp (disch := omega) only [extractLsb'_append_low, extractLsb'_append_high]
  simp

@[simp] theorem statusWord_rejOp : (statusWord s).extractLsb' 20 4 = s.status.rejOp := by
  unfold statusWord
  simp (disch := omega) only [extractLsb'_append_low, extractLsb'_append_high]
  simp

@[simp] theorem statusWord_reserved : (statusWord s).extractLsb' 25 7 = 0 := by
  unfold statusWord
  simp (disch := omega) only [extractLsb'_append_high]
  simp

/-! LZW_STATE. -/

@[simp] theorem lzwStateWord_width : (lzwStateWord s).extractLsb' 0 4 = s.lzw.width := by
  unfold lzwStateWord
  simp (disch := omega) only [extractLsb'_append_low]
  simp

@[simp] theorem lzwStateWord_nextFree : (lzwStateWord s).extractLsb' 4 13 = s.lzw.nextFree := by
  unfold lzwStateWord
  simp (disch := omega) only [extractLsb'_append_low, extractLsb'_append_high]
  simp

@[simp] theorem lzwStateWord_prev : (lzwStateWord s).extractLsb' 17 12 = if s.lzw.prevValid then s.lzw.prev else 0 := by
  unfold lzwStateWord
  simp (disch := omega) only [extractLsb'_append_low, extractLsb'_append_high]
  simp

theorem lzwStateWord_prevValid : (lzwStateWord s).getLsbD 29 = s.lzw.prevValid := by
  unfold lzwStateWord; simp only [BitVec.getLsbD_append]; simp

@[simp] theorem lzwStateWord_reserved : (lzwStateWord s).extractLsb' 30 2 = 0 := by
  unfold lzwStateWord
  simp (disch := omega) only [extractLsb'_append_high]
  simp

/-! FL_FLAGS. -/

variable (f : FrameLatch)

theorem flFlagsWord_interlace : (flFlagsWord f).getLsbD 0 = f.interlace := by
  unfold flFlagsWord; simp only [BitVec.getLsbD_append]; simp

theorem flFlagsWord_ten : (flFlagsWord f).getLsbD 1 = f.ten := by
  unfold flFlagsWord; simp only [BitVec.getLsbD_append]; simp

@[simp] theorem flFlagsWord_tsel : (flFlagsWord f).extractLsb' 2 2 = tselBits f.tsel := by
  unfold flFlagsWord
  simp (disch := omega) only [extractLsb'_append_low, extractLsb'_append_high]
  simp

@[simp] theorem flFlagsWord_disp : (flFlagsWord f).extractLsb' 4 3 = f.disp := by
  unfold flFlagsWord
  simp (disch := omega) only [extractLsb'_append_low, extractLsb'_append_high]
  simp

@[simp] theorem flFlagsWord_tidx : (flFlagsWord f).extractLsb' 8 8 = f.tidx := by
  unfold flFlagsWord
  simp (disch := omega) only [extractLsb'_append_low, extractLsb'_append_high]
  simp

@[simp] theorem flFlagsWord_tsize : (flFlagsWord f).extractLsb' 16 9 = f.tsize := by
  unfold flFlagsWord
  simp (disch := omega) only [extractLsb'_append_low, extractLsb'_append_high]
  simp

theorem flFlagsWord_bit7 : (flFlagsWord f).getLsbD 7 = false := by
  unfold flFlagsWord; simp only [BitVec.getLsbD_append]; simp

@[simp] theorem flFlagsWord_reserved : (flFlagsWord f).extractLsb' 25 7 = 0 := by
  unfold flFlagsWord
  simp (disch := omega) only [extractLsb'_append_high]
  simp

end Sys2Proof.Machine
end

