-- ==== Sys2Proof/Laws/Memory.lean ====
section
/-! SUPPORT. The laws of memories: a read after a write, every other cell untouched, and the canonical form kept by
every memory operation (R71). -/

namespace Sys2Proof.Machine

variable {α : Type}

/-- Leaving out cells by their address leaves the others what they hold. -/
theorem cellAt_filter (keep : Nat → Bool) (a : Nat) (l : List (Nat × α)) :
    cellAt (l.filter fun cell => keep cell.1) a = if keep a then cellAt l a else none := by
  induction l with
  | nil => simp [cellAt]
  | cons cell rest ih =>
    rw [List.filter_cons]
    by_cases hb : keep cell.1 = true <;> by_cases hab : a = cell.1 <;> simp_all [cellAt]

theorem cellAt_append (l l' : List (Nat × α)) (a : Nat) : cellAt (l ++ l') a = (cellAt l a).or (cellAt l' a) := by
  induction l with
  | nil => rfl
  | cons cell rest ih =>
    by_cases hab : a = cell.1 <;> simp [cellAt, hab, ih]

theorem cellAt_putCell (a a' : Nat) (v : α) (l : List (Nat × α)) :
    cellAt (putCell a v l) a' = if a' = a then some v else cellAt l a' := by
  unfold putCell
  rw [cellAt_append, cellAt_filter (fun b => decide (b < a)), cellAt,
    cellAt_filter (fun b => decide (a < b))]
  rcases Nat.lt_trichotomy a' a with h | h | h
  · simp [h, Nat.ne_of_lt h, Nat.lt_asymm h]
  · simp [h]
  · simp [h, Nat.ne_of_gt h, Nat.lt_asymm h]

/-- The canonical form is that the addresses rise strictly. -/
theorem cellsWf_iff_pairwise (l : List (Nat × α)) : cellsWf l = true ↔ l.Pairwise fun c d => c.1 < d.1 :=
  decide_eq_true_iff

theorem mem_putCell {a : Nat} {v : α} {l : List (Nat × α)} {c : Nat × α} (h : c ∈ putCell a v l) :
    c = (a, v) ∨ c ∈ l := by
  simp only [putCell, List.mem_append, List.mem_cons, List.mem_filter] at h
  tauto

theorem putCell_wf {a : Nat} {v : α} {l : List (Nat × α)} (h : cellsWf l = true) :
    cellsWf (putCell a v l) = true := by
  rw [cellsWf_iff_pairwise] at h ⊢
  refine List.pairwise_append.mpr ⟨h.filter _, List.pairwise_cons.mpr ⟨?_, h.filter _⟩, ?_⟩
  · intro c hc
    simpa using (List.mem_filter.mp hc).2
  · intro c hc d hd
    have hca : c.1 < a := by simpa using (List.mem_filter.mp hc).2
    simp only [List.mem_cons, List.mem_filter, decide_eq_true_eq] at hd
    rcases hd with rfl | hd
    · exact hca
    · exact Nat.lt_trans hca hd.2

theorem cellAt_map_append (f : Nat → α) (ks : List Nat) (l : List (Nat × α)) (a : Nat) :
    cellAt (ks.map (fun k => (k, f k)) ++ l) a = if a ∈ ks then some (f a) else cellAt l a := by
  induction ks with
  | nil => simp
  | cons k rest ih =>
    simp only [List.map_cons, List.cons_append, cellAt, ih, List.mem_cons]
    by_cases h : a = k
    · subst h; simp
    · simp [h]

theorem Store.get_put (m : Store α) (free : Nat → Nat → α) (a a' : Nat) (v : α) :
    (m.put a v).get free a' = if a' = a then v else m.get free a' := by
  simp only [Store.get, Store.put, cellAt_putCell]
  split <;> rfl

@[simp] theorem Store.get_put_self (m : Store α) (free : Nat → Nat → α) (a : Nat) (v : α) :
    (m.put a v).get free a = v := by
  rw [Store.get_put, if_pos rfl]

theorem Store.get_put_ne (m : Store α) (free : Nat → Nat → α) {a a' : Nat} (v : α) (h : a' ≠ a) :
    (m.put a v).get free a' = m.get free a' := by
  rw [Store.get_put, if_neg h]

theorem Store.get_fillBelow (m : Store α) (free : Nat → Nat → α) (n a : Nat) (f : Nat → α) :
    (m.fillBelow n f).get free a = if a < n then f a else m.get free a := by
  simp only [Store.get, Store.fillBelow, cellAt_map_append, List.mem_range, cellAt_filter (fun b => decide (n ≤ b))]
  by_cases h : a < n
  · simp [h]
  · simp [h, Nat.le_of_not_lt h]

@[simp] theorem Store.get_unspecified (free : Nat → Nat → α) (draw a : Nat) :
    (Store.unspecified α draw).get free a = free draw a := rfl

/-! The canonical form. -/

@[simp] theorem Store.unspecified_wf (draw : Nat) : (Store.unspecified α draw).wf = true := rfl

theorem Store.put_wf {m : Store α} (a : Nat) (v : α) (h : m.wf = true) : (m.put a v).wf = true :=
  putCell_wf h

theorem Store.fillBelow_wf {m : Store α} (n : Nat) (f : Nat → α) (h : m.wf = true) :
    (m.fillBelow n f).wf = true := by
  simp only [Store.wf, Store.fillBelow] at h ⊢
  rw [cellsWf_iff_pairwise] at h ⊢
  refine List.pairwise_append.mpr ⟨?_, h.filter _, ?_⟩
  · rw [List.pairwise_map]
    exact List.pairwise_lt_range
  · intro c hc d hd
    simp only [List.mem_map, List.mem_range] at hc
    obtain ⟨k, hk, rfl⟩ := hc
    simp only [List.mem_filter, decide_eq_true_eq] at hd
    exact Nat.lt_of_lt_of_le hk hd.2

/-! Every listed address stays below the capacity. -/

@[simp] theorem Store.unspecified_below (draw bound : Nat) : (Store.unspecified α draw).below bound = true := rfl

theorem Store.put_below {m : Store α} {a bound : Nat} (v : α) (ha : a < bound) (h : m.below bound = true) :
    (m.put a v).below bound = true := by
  simp only [Store.below, Store.put, List.all_eq_true, decide_eq_true_eq] at h ⊢
  intro c hc
  rcases mem_putCell hc with rfl | hc
  · exact ha
  · exact h c hc

theorem Store.fillBelow_below {m : Store α} {n bound : Nat} (f : Nat → α) (hn : n ≤ bound)
    (h : m.below bound = true) : (m.fillBelow n f).below bound = true := by
  simp only [Store.below, Store.fillBelow, List.all_eq_true, decide_eq_true_eq, List.mem_append, List.mem_map,
    List.mem_range, List.mem_filter] at h ⊢
  rintro c (⟨k, hk, rfl⟩ | ⟨hc, -⟩)
  · exact Nat.lt_of_lt_of_le hk hn
  · exact h c hc

/-! IN_MEM window words (R65). -/

/-- What a word write leaves in each byte (R62, R65). -/
theorem putWindowWord_get (capacity a : Nat) (w : Word) (m : Store Byte) (free : Nat → Nat → Byte) (b : Nat) :
    (putWindowWord capacity a w m).get free b =
      if a ≤ b ∧ b < a + 4 ∧ b < capacity then wordByte w (b - a) else m.get free b := by
  have key : ∀ n, ((List.range n).foldl (fun (m : Store Byte) i => if a + i < capacity then m.put (a + i) (wordByte w i)
      else m) m).get free b = if a ≤ b ∧ b < a + n ∧ b < capacity then wordByte w (b - a) else m.get free b := by
    intro n
    induction n with
    | zero => rw [if_neg (by omega)]; rfl
    | succ n ih =>
      rw [List.range_succ, List.foldl_append]
      simp only [List.foldl_cons, List.foldl_nil]
      split
      · rename_i hc
        rw [Store.get_put, ih]
        by_cases hb : b = a + n
        · subst hb
          rw [if_pos rfl, if_pos (by omega)]
          congr 1; omega
        · rw [if_neg hb]
          exact if_congr (by omega) rfl rfl
      · rw [ih]
        exact if_congr (by omega) rfl rfl
  exact key 4

theorem putWindowWord_wf {capacity a : Nat} {w : Word} {m : Store Byte} (h : m.wf = true) :
    (putWindowWord capacity a w m).wf = true := by
  have key : ∀ n, ((List.range n).foldl (fun (m : Store Byte) i => if a + i < capacity then m.put (a + i) (wordByte w i)
      else m) m).wf = true := by
    intro n
    induction n with
    | zero => exact h
    | succ n ih =>
      rw [List.range_succ, List.foldl_append]
      simp only [List.foldl_cons, List.foldl_nil]
      split
      · exact Store.put_wf _ _ ih
      · exact ih
  exact key 4

theorem putWindowWord_below {capacity a : Nat} {w : Word} {m : Store Byte} (h : m.below capacity = true) :
    (putWindowWord capacity a w m).below capacity = true := by
  have key : ∀ n, ((List.range n).foldl (fun (m : Store Byte) i => if a + i < capacity then m.put (a + i) (wordByte w i)
      else m) m).below capacity = true := by
    intro n
    induction n with
    | zero => exact h
    | succ n ih =>
      rw [List.range_succ, List.foldl_append]
      simp only [List.foldl_cons, List.foldl_nil]
      split
      · rename_i hc; exact Store.put_below _ hc ih
      · exact ih
  exact key 4

end Sys2Proof.Machine
end

