-- ==== Sys2Proof/Laws/Bus.lean ====
section
/-! SUPPORT. The laws of Host accesses: an aligned word access of the block goes to its offset (R60, R61), and the bytes
of a word (R65). -/

namespace Sys2Proof.Machine

theorem decodeAddress_word (p : Params) {off : Nat} (hoff : off < 2 ^ 30) (hal : off % 4 = 0) :
    decodeAddress p (p.base + off) 4 = .ok off := by
  unfold decodeAddress
  rw [if_neg (by simp), if_neg (by omega), if_neg (by rw [Nat.add_sub_cancel_left]; omega), Nat.add_sub_cancel_left]

theorem decodeAddress_ok_iff (p : Params) (addr bytes off : Nat) :
    decodeAddress p addr bytes = .ok off ↔
      bytes = 4 ∧ p.base ≤ addr ∧ addr < p.base + 2 ^ 30 ∧ (addr - p.base) % 4 = 0 ∧ off = addr - p.base := by
  unfold decodeAddress
  by_cases hb : bytes = 4
  · by_cases hr : addr < p.base ∨ p.base + 2 ^ 30 ≤ addr
    · rw [if_neg (by simp [hb]), if_pos hr]
      simp only [reduceCtorEq, false_iff]
      omega
    · by_cases ha : (addr - p.base) % 4 = 0
      · rw [if_neg (by simp [hb]), if_neg hr, if_neg (by simp [ha])]
        simp only [Except.ok.injEq]
        omega
      · rw [if_neg (by simp [hb]), if_neg hr, if_pos ha]
        simp [ha]
  · rw [if_pos hb]
    simp [hb]

theorem hostRead_word (s : State) {off : Nat} (hoff : off < 2 ^ 30) (hal : off % 4 = 0) :
    hostRead (s.params.base + off) 4 s = readOffset off s := by
  unfold hostRead
  rw [decodeAddress_word s.params hoff hal]

theorem hostWrite_word (s : State) (w : Word) {off : Nat} (hoff : off < 2 ^ 30) (hal : off % 4 = 0) :
    hostWrite (s.params.base + off) 4 0xF w s = writeOffset off w s := by
  unfold hostWrite
  rw [decodeAddress_word s.params hoff hal]
  rfl

/-! The address map. -/

theorem within_of_lt {capacity i : Nat} (place : Place) (h : i < capacity) : within capacity i place = .ok place := by
  unfold within; rw [if_pos h]

theorem within_ok_iff (capacity i : Nat) (place q : Place) :
    within capacity i place = .ok q ↔ i < capacity ∧ q = place := by
  unfold within
  by_cases h : i < capacity
  · rw [if_pos h]; simp [h, eq_comm]
  · rw [if_neg h]; simp [h]

theorem locate_register (p : Params) {off : Nat} (h : off < 0x100) : locate p off = .ok (.register off) := by
  unfold locate; rw [if_pos h]

theorem locate_gct (p : Params) {i : Nat} (h : i < 256) : locate p (0x1000 + 4 * i) = .ok (.gct i) := by
  unfold locate
  repeat rw [if_neg (by omega)]
  rw [if_pos (by omega), show (0x1000 + 4 * i - 0x1000) / 4 = i by omega]

theorem locate_lct (p : Params) {i : Nat} (h : i < 256) : locate p (0x1400 + 4 * i) = .ok (.lct i) := by
  unfold locate
  repeat rw [if_neg (by omega)]
  rw [if_pos (by omega), show (0x1400 + 4 * i - 0x1400) / 4 = i by omega]

theorem locate_inMem (p : Params) {a : Nat} (h : a < 0x01000000) (hp : a < p.inMemBytes) :
    locate p (0x01000000 + a) = .ok (.inMem a) := by
  unfold locate
  repeat rw [if_neg (by omega)]
  rw [if_pos (by omega), Nat.add_sub_cancel_left, within_of_lt _ hp]

theorem locate_idxMem (p : Params) {a : Nat} (h : a < 0x0E000000) (hp : a < p.idxMemBytes) :
    locate p (0x02000000 + a) = .ok (.idxMem a) := by
  unfold locate
  repeat rw [if_neg (by omega)]
  rw [if_pos (by omega), Nat.add_sub_cancel_left, within_of_lt _ hp]

theorem locate_canvas (p : Params) {n : Nat} (h : n < 0x08000000) (hp : n < p.canvasPixels) :
    locate p (0x10000000 + 4 * n) = .ok (.canvas n) := by
  unfold locate
  repeat rw [if_neg (by omega)]
  rw [if_pos (by omega), show (0x10000000 + 4 * n - 0x10000000) / 4 = n by omega, within_of_lt _ hp]

/-- Every place the map can name, with where it stands. -/
theorem locate_ok_cases {p : Params} {off : Nat} {place : Place} (h : locate p off = .ok place) :
    (place = .register off ∧ off < 0x100)
    ∨ (place = .gct ((off - 0x1000) / 4) ∧ 0x1000 ≤ off ∧ off < 0x1400)
    ∨ (place = .lct ((off - 0x1400) / 4) ∧ 0x1400 ≤ off ∧ off < 0x1800)
    ∨ (place = .inMem (off - 0x01000000) ∧ 0x01000000 ≤ off ∧ off < 0x02000000 ∧ off - 0x01000000 < p.inMemBytes)
    ∨ (place = .idxMem (off - 0x02000000) ∧ 0x02000000 ≤ off ∧ off < 0x10000000 ∧ off - 0x02000000 < p.idxMemBytes)
    ∨ (place = .canvas ((off - 0x10000000) / 4) ∧ 0x10000000 ≤ off ∧ off < 0x30000000
      ∧ (off - 0x10000000) / 4 < p.canvasPixels) := by
  unfold locate at h
  by_cases h1 : off < 0x100
  · rw [if_pos h1] at h; cases h; exact .inl ⟨rfl, h1⟩
  rw [if_neg h1] at h
  by_cases h2 : off < 0x1000
  · rw [if_pos h2] at h; cases h
  rw [if_neg h2] at h
  by_cases h3 : off < 0x1400
  · rw [if_pos h3] at h; cases h; exact .inr (.inl ⟨rfl, by omega, h3⟩)
  rw [if_neg h3] at h
  by_cases h4 : off < 0x1800
  · rw [if_pos h4] at h; cases h; exact .inr (.inr (.inl ⟨rfl, by omega, h4⟩))
  rw [if_neg h4] at h
  by_cases h5 : off < 0x01000000
  · rw [if_pos h5] at h; cases h
  rw [if_neg h5] at h
  by_cases h6 : off < 0x02000000
  · rw [if_pos h6, within_ok_iff] at h
    exact .inr (.inr (.inr (.inl ⟨h.2, by omega, h6, h.1⟩)))
  rw [if_neg h6] at h
  by_cases h7 : off < 0x10000000
  · rw [if_pos h7, within_ok_iff] at h
    exact .inr (.inr (.inr (.inr (.inl ⟨h.2, by omega, h7, h.1⟩))))
  rw [if_neg h7] at h
  by_cases h8 : off < 0x30000000
  · rw [if_pos h8, within_ok_iff] at h
    exact .inr (.inr (.inr (.inr (.inr ⟨h.2, by omega, h8, h.1⟩))))
  rw [if_neg h8] at h
  cases h

/-- Everything a read can do: the response, and the draw of a free value. -/
theorem readPlace_eq (place : Place) (s : State) :
    ∃ w, readPlace place s =
      { s with host := { s.host with response := some w }, draws := (readPlace place s).draws } := by
  cases place
  case idxMem a => unfold readPlace; dsimp only; split <;> exact ⟨_, rfl⟩
  case canvas n => unfold readPlace; dsimp only; split <;> exact ⟨_, rfl⟩
  all_goals exact ⟨_, rfl⟩

/-! Words and bytes. -/

/-- Byte i of a word put together from four bytes is the i-th. -/
theorem wordByte_leWord (b0 b1 b2 b3 : Byte) (i : Nat) (hi : i < 4) :
    wordByte (leWord b0 b1 b2 b3) i = [b0, b1, b2, b3].getD i 0 := by
  unfold wordByte leWord
  interval_cases i <;> simp (disch := omega) only [extractLsb'_append_low, extractLsb'_append_high] <;> simp

/-- A word put together from its own bytes is itself. -/
theorem leWord_wordByte (w : Word) : leWord (wordByte w 0) (wordByte w 1) (wordByte w 2) (wordByte w 3) = w := by
  unfold wordByte leWord
  ext j hj
  rw [← BitVec.getLsbD_eq_getElem, ← BitVec.getLsbD_eq_getElem]
  simp only [BitVec.getLsbD_append, BitVec.getLsbD_extractLsb']
  split_ifs with h1 h2 h3
  · simp [h1]
  · rw [show 8 * 1 + (j - 8) = j by omega]; simp [h2]
  · rw [show 8 * 2 + (j - 8 - 8) = j by omega]; simp [h3]
  · rw [show 8 * 3 + (j - 8 - 8 - 8) = j by omega]
    simp only [Bool.and_eq_right_iff_imp, decide_eq_true_eq]
    omega

end Sys2Proof.Machine
end

