-- ==== Sys2Proof/Laws/State.lean ====
section
/-! SUPPORT. What each named update does to each field of the state, so that no proof unfolds a record update. -/

namespace Sys2Proof.Machine

@[simp] theorem raise_params (e : ErrorCode) (i0 i1 : Word) (s : State) : (raise e i0 i1 s).params = s.params := rfl
@[simp] theorem raise_eng (e : ErrorCode) (i0 i1 : Word) (s : State) : (raise e i0 i1 s).eng = .idle := rfl
@[simp] theorem raise_status (e : ErrorCode) (i0 i1 : Word) (s : State) :
    (raise e i0 i1 s).status = { s.status with done := false, err := true, errCode := errorByte e } := rfl
@[simp] theorem raise_regs (e : ErrorCode) (i0 i1 : Word) (s : State) : (raise e i0 i1 s).regs = s.regs := rfl
@[simp] theorem raise_errInfo0 (e : ErrorCode) (i0 i1 : Word) (s : State) : (raise e i0 i1 s).errInfo0 = i0 := rfl
@[simp] theorem raise_errInfo1 (e : ErrorCode) (i0 i1 : Word) (s : State) : (raise e i0 i1 s).errInfo1 = i1 := rfl
@[simp] theorem raise_lzw (e : ErrorCode) (i0 i1 : Word) (s : State) : (raise e i0 i1 s).lzw = s.lzw := rfl
@[simp] theorem raise_bitPos (e : ErrorCode) (i0 i1 : Word) (s : State) : (raise e i0 i1 s).bitPos = s.bitPos := rfl
@[simp] theorem raise_pixCount (e : ErrorCode) (i0 i1 : Word) (s : State) :
    (raise e i0 i1 s).pixCount = s.pixCount := rfl
@[simp] theorem raise_progress (e : ErrorCode) (i0 i1 : Word) (s : State) :
    (raise e i0 i1 s).progress = s.progress := rfl
@[simp] theorem raise_work (e : ErrorCode) (i0 i1 : Word) (s : State) : (raise e i0 i1 s).work = s.work := rfl
@[simp] theorem raise_canvasLatch (e : ErrorCode) (i0 i1 : Word) (s : State) :
    (raise e i0 i1 s).canvasLatch = s.canvasLatch := rfl
@[simp] theorem raise_indexLatch (e : ErrorCode) (i0 i1 : Word) (s : State) :
    (raise e i0 i1 s).indexLatch = s.indexLatch := rfl
@[simp] theorem raise_frameLatch (e : ErrorCode) (i0 i1 : Word) (s : State) :
    (raise e i0 i1 s).frameLatch = s.frameLatch := rfl
@[simp] theorem raise_inMem (e : ErrorCode) (i0 i1 : Word) (s : State) : (raise e i0 i1 s).inMem = s.inMem := rfl
@[simp] theorem raise_idxMem (e : ErrorCode) (i0 i1 : Word) (s : State) : (raise e i0 i1 s).idxMem = s.idxMem := rfl
@[simp] theorem raise_gct (e : ErrorCode) (i0 i1 : Word) (s : State) : (raise e i0 i1 s).gct = s.gct := rfl
@[simp] theorem raise_lct (e : ErrorCode) (i0 i1 : Word) (s : State) : (raise e i0 i1 s).lct = s.lct := rfl
@[simp] theorem raise_canvas (e : ErrorCode) (i0 i1 : Word) (s : State) : (raise e i0 i1 s).canvas = s.canvas := rfl
@[simp] theorem raise_snap (e : ErrorCode) (i0 i1 : Word) (s : State) : (raise e i0 i1 s).snap = s.snap := rfl
@[simp] theorem raise_table (e : ErrorCode) (i0 i1 : Word) (s : State) : (raise e i0 i1 s).table = s.table := rfl
@[simp] theorem raise_canvasDraw (e : ErrorCode) (i0 i1 : Word) (s : State) :
    (raise e i0 i1 s).canvasDraw = s.canvasDraw := rfl
@[simp] theorem raise_draws (e : ErrorCode) (i0 i1 : Word) (s : State) : (raise e i0 i1 s).draws = s.draws := rfl
@[simp] theorem raise_host (e : ErrorCode) (i0 i1 : Word) (s : State) : (raise e i0 i1 s).host = s.host := rfl

@[simp] theorem finish_params (s : State) : (finish s).params = s.params := rfl
@[simp] theorem finish_eng (s : State) : (finish s).eng = .idle := rfl
@[simp] theorem finish_status (s : State) :
    (finish s).status = { s.status with done := true, err := false, errCode := 0 } := rfl
@[simp] theorem finish_regs (s : State) : (finish s).regs = s.regs := rfl
@[simp] theorem finish_errInfo0 (s : State) : (finish s).errInfo0 = s.errInfo0 := rfl
@[simp] theorem finish_errInfo1 (s : State) : (finish s).errInfo1 = s.errInfo1 := rfl
@[simp] theorem finish_lzw (s : State) : (finish s).lzw = s.lzw := rfl
@[simp] theorem finish_bitPos (s : State) : (finish s).bitPos = s.bitPos := rfl
@[simp] theorem finish_pixCount (s : State) : (finish s).pixCount = s.pixCount := rfl
@[simp] theorem finish_progress (s : State) : (finish s).progress = s.progress := rfl
@[simp] theorem finish_work (s : State) : (finish s).work = s.work := rfl
@[simp] theorem finish_canvasLatch (s : State) : (finish s).canvasLatch = s.canvasLatch := rfl
@[simp] theorem finish_indexLatch (s : State) : (finish s).indexLatch = s.indexLatch := rfl
@[simp] theorem finish_frameLatch (s : State) : (finish s).frameLatch = s.frameLatch := rfl
@[simp] theorem finish_inMem (s : State) : (finish s).inMem = s.inMem := rfl
@[simp] theorem finish_idxMem (s : State) : (finish s).idxMem = s.idxMem := rfl
@[simp] theorem finish_gct (s : State) : (finish s).gct = s.gct := rfl
@[simp] theorem finish_lct (s : State) : (finish s).lct = s.lct := rfl
@[simp] theorem finish_canvas (s : State) : (finish s).canvas = s.canvas := rfl
@[simp] theorem finish_snap (s : State) : (finish s).snap = s.snap := rfl
@[simp] theorem finish_table (s : State) : (finish s).table = s.table := rfl
@[simp] theorem finish_canvasDraw (s : State) : (finish s).canvasDraw = s.canvasDraw := rfl
@[simp] theorem finish_draws (s : State) : (finish s).draws = s.draws := rfl
@[simp] theorem finish_host (s : State) : (finish s).host = s.host := rfl

@[simp] theorem accept_params (op : BitVec 4) (s : State) : (accept op s).params = s.params := rfl
@[simp] theorem accept_eng (op : BitVec 4) (s : State) : (accept op s).eng = s.eng := rfl
@[simp] theorem accept_status (op : BitVec 4) (s : State) :
    (accept op s).status = { s.status with done := false, err := false, errCode := 0, lastOp := op } := rfl
@[simp] theorem accept_regs (op : BitVec 4) (s : State) : (accept op s).regs = s.regs := rfl
@[simp] theorem accept_errInfo0 (op : BitVec 4) (s : State) : (accept op s).errInfo0 = 0 := rfl
@[simp] theorem accept_errInfo1 (op : BitVec 4) (s : State) : (accept op s).errInfo1 = 0 := rfl
@[simp] theorem accept_lzw (op : BitVec 4) (s : State) : (accept op s).lzw = s.lzw := rfl
@[simp] theorem accept_bitPos (op : BitVec 4) (s : State) : (accept op s).bitPos = s.bitPos := rfl
@[simp] theorem accept_pixCount (op : BitVec 4) (s : State) : (accept op s).pixCount = s.pixCount := rfl
@[simp] theorem accept_progress (op : BitVec 4) (s : State) : (accept op s).progress = s.progress := rfl
@[simp] theorem accept_work (op : BitVec 4) (s : State) : (accept op s).work = s.work := rfl
@[simp] theorem accept_canvasLatch (op : BitVec 4) (s : State) : (accept op s).canvasLatch = s.canvasLatch := rfl
@[simp] theorem accept_indexLatch (op : BitVec 4) (s : State) : (accept op s).indexLatch = s.indexLatch := rfl
@[simp] theorem accept_frameLatch (op : BitVec 4) (s : State) : (accept op s).frameLatch = s.frameLatch := rfl
@[simp] theorem accept_inMem (op : BitVec 4) (s : State) : (accept op s).inMem = s.inMem := rfl
@[simp] theorem accept_idxMem (op : BitVec 4) (s : State) : (accept op s).idxMem = s.idxMem := rfl
@[simp] theorem accept_gct (op : BitVec 4) (s : State) : (accept op s).gct = s.gct := rfl
@[simp] theorem accept_lct (op : BitVec 4) (s : State) : (accept op s).lct = s.lct := rfl
@[simp] theorem accept_canvas (op : BitVec 4) (s : State) : (accept op s).canvas = s.canvas := rfl
@[simp] theorem accept_snap (op : BitVec 4) (s : State) : (accept op s).snap = s.snap := rfl
@[simp] theorem accept_table (op : BitVec 4) (s : State) : (accept op s).table = s.table := rfl
@[simp] theorem accept_canvasDraw (op : BitVec 4) (s : State) : (accept op s).canvasDraw = s.canvasDraw := rfl
@[simp] theorem accept_draws (op : BitVec 4) (s : State) : (accept op s).draws = s.draws := rfl
@[simp] theorem accept_host (op : BitVec 4) (s : State) : (accept op s).host = s.host := rfl

@[simp] theorem reject_params (op : BitVec 4) (s : State) : (reject op s).params = s.params := rfl
@[simp] theorem reject_eng (op : BitVec 4) (s : State) : (reject op s).eng = s.eng := rfl
@[simp] theorem reject_status (op : BitVec 4) (s : State) :
    (reject op s).status = { s.status with rej := true, rejOp := op } := rfl
@[simp] theorem reject_regs (op : BitVec 4) (s : State) : (reject op s).regs = s.regs := rfl
@[simp] theorem reject_errInfo0 (op : BitVec 4) (s : State) : (reject op s).errInfo0 = s.errInfo0 := rfl
@[simp] theorem reject_errInfo1 (op : BitVec 4) (s : State) : (reject op s).errInfo1 = s.errInfo1 := rfl
@[simp] theorem reject_lzw (op : BitVec 4) (s : State) : (reject op s).lzw = s.lzw := rfl
@[simp] theorem reject_bitPos (op : BitVec 4) (s : State) : (reject op s).bitPos = s.bitPos := rfl
@[simp] theorem reject_pixCount (op : BitVec 4) (s : State) : (reject op s).pixCount = s.pixCount := rfl
@[simp] theorem reject_progress (op : BitVec 4) (s : State) : (reject op s).progress = s.progress := rfl
@[simp] theorem reject_work (op : BitVec 4) (s : State) : (reject op s).work = s.work := rfl
@[simp] theorem reject_canvasLatch (op : BitVec 4) (s : State) : (reject op s).canvasLatch = s.canvasLatch := rfl
@[simp] theorem reject_indexLatch (op : BitVec 4) (s : State) : (reject op s).indexLatch = s.indexLatch := rfl
@[simp] theorem reject_frameLatch (op : BitVec 4) (s : State) : (reject op s).frameLatch = s.frameLatch := rfl
@[simp] theorem reject_inMem (op : BitVec 4) (s : State) : (reject op s).inMem = s.inMem := rfl
@[simp] theorem reject_idxMem (op : BitVec 4) (s : State) : (reject op s).idxMem = s.idxMem := rfl
@[simp] theorem reject_gct (op : BitVec 4) (s : State) : (reject op s).gct = s.gct := rfl
@[simp] theorem reject_lct (op : BitVec 4) (s : State) : (reject op s).lct = s.lct := rfl
@[simp] theorem reject_canvas (op : BitVec 4) (s : State) : (reject op s).canvas = s.canvas := rfl
@[simp] theorem reject_snap (op : BitVec 4) (s : State) : (reject op s).snap = s.snap := rfl
@[simp] theorem reject_table (op : BitVec 4) (s : State) : (reject op s).table = s.table := rfl
@[simp] theorem reject_canvasDraw (op : BitVec 4) (s : State) : (reject op s).canvasDraw = s.canvasDraw := rfl
@[simp] theorem reject_draws (op : BitVec 4) (s : State) : (reject op s).draws = s.draws := rfl
@[simp] theorem reject_host (op : BitVec 4) (s : State) : (reject op s).host = s.host := rfl

@[simp] theorem respond_params (w : Word) (s : State) : (respond w s).params = s.params := rfl
@[simp] theorem respond_eng (w : Word) (s : State) : (respond w s).eng = s.eng := rfl
@[simp] theorem respond_status (w : Word) (s : State) : (respond w s).status = s.status := rfl
@[simp] theorem respond_regs (w : Word) (s : State) : (respond w s).regs = s.regs := rfl
@[simp] theorem respond_errInfo0 (w : Word) (s : State) : (respond w s).errInfo0 = s.errInfo0 := rfl
@[simp] theorem respond_errInfo1 (w : Word) (s : State) : (respond w s).errInfo1 = s.errInfo1 := rfl
@[simp] theorem respond_lzw (w : Word) (s : State) : (respond w s).lzw = s.lzw := rfl
@[simp] theorem respond_bitPos (w : Word) (s : State) : (respond w s).bitPos = s.bitPos := rfl
@[simp] theorem respond_pixCount (w : Word) (s : State) : (respond w s).pixCount = s.pixCount := rfl
@[simp] theorem respond_progress (w : Word) (s : State) : (respond w s).progress = s.progress := rfl
@[simp] theorem respond_work (w : Word) (s : State) : (respond w s).work = s.work := rfl
@[simp] theorem respond_canvasLatch (w : Word) (s : State) : (respond w s).canvasLatch = s.canvasLatch := rfl
@[simp] theorem respond_indexLatch (w : Word) (s : State) : (respond w s).indexLatch = s.indexLatch := rfl
@[simp] theorem respond_frameLatch (w : Word) (s : State) : (respond w s).frameLatch = s.frameLatch := rfl
@[simp] theorem respond_inMem (w : Word) (s : State) : (respond w s).inMem = s.inMem := rfl
@[simp] theorem respond_idxMem (w : Word) (s : State) : (respond w s).idxMem = s.idxMem := rfl
@[simp] theorem respond_gct (w : Word) (s : State) : (respond w s).gct = s.gct := rfl
@[simp] theorem respond_lct (w : Word) (s : State) : (respond w s).lct = s.lct := rfl
@[simp] theorem respond_canvas (w : Word) (s : State) : (respond w s).canvas = s.canvas := rfl
@[simp] theorem respond_snap (w : Word) (s : State) : (respond w s).snap = s.snap := rfl
@[simp] theorem respond_table (w : Word) (s : State) : (respond w s).table = s.table := rfl
@[simp] theorem respond_canvasDraw (w : Word) (s : State) : (respond w s).canvasDraw = s.canvasDraw := rfl
@[simp] theorem respond_draws (w : Word) (s : State) : (respond w s).draws = s.draws := rfl
@[simp] theorem respond_host (w : Word) (s : State) : (respond w s).host = { s.host with response := some w } := rfl

@[simp] theorem dropEvent_params (s : State) : (dropEvent s).params = s.params := rfl
@[simp] theorem dropEvent_eng (s : State) : (dropEvent s).eng = s.eng := rfl
@[simp] theorem dropEvent_status (s : State) : (dropEvent s).status = s.status := rfl
@[simp] theorem dropEvent_regs (s : State) : (dropEvent s).regs = s.regs := rfl
@[simp] theorem dropEvent_errInfo0 (s : State) : (dropEvent s).errInfo0 = s.errInfo0 := rfl
@[simp] theorem dropEvent_errInfo1 (s : State) : (dropEvent s).errInfo1 = s.errInfo1 := rfl
@[simp] theorem dropEvent_lzw (s : State) : (dropEvent s).lzw = s.lzw := rfl
@[simp] theorem dropEvent_bitPos (s : State) : (dropEvent s).bitPos = s.bitPos := rfl
@[simp] theorem dropEvent_pixCount (s : State) : (dropEvent s).pixCount = s.pixCount := rfl
@[simp] theorem dropEvent_progress (s : State) : (dropEvent s).progress = s.progress := rfl
@[simp] theorem dropEvent_work (s : State) : (dropEvent s).work = s.work := rfl
@[simp] theorem dropEvent_canvasLatch (s : State) : (dropEvent s).canvasLatch = s.canvasLatch := rfl
@[simp] theorem dropEvent_indexLatch (s : State) : (dropEvent s).indexLatch = s.indexLatch := rfl
@[simp] theorem dropEvent_frameLatch (s : State) : (dropEvent s).frameLatch = s.frameLatch := rfl
@[simp] theorem dropEvent_inMem (s : State) : (dropEvent s).inMem = s.inMem := rfl
@[simp] theorem dropEvent_idxMem (s : State) : (dropEvent s).idxMem = s.idxMem := rfl
@[simp] theorem dropEvent_gct (s : State) : (dropEvent s).gct = s.gct := rfl
@[simp] theorem dropEvent_lct (s : State) : (dropEvent s).lct = s.lct := rfl
@[simp] theorem dropEvent_canvas (s : State) : (dropEvent s).canvas = s.canvas := rfl
@[simp] theorem dropEvent_snap (s : State) : (dropEvent s).snap = s.snap := rfl
@[simp] theorem dropEvent_table (s : State) : (dropEvent s).table = s.table := rfl
@[simp] theorem dropEvent_canvasDraw (s : State) : (dropEvent s).canvasDraw = s.canvasDraw := rfl
@[simp] theorem dropEvent_draws (s : State) : (dropEvent s).draws = s.draws := rfl
@[simp] theorem dropEvent_host (s : State) : (dropEvent s).host = { s.host with events := s.host.events.tail } := rfl

@[simp] theorem canvasPut_params (n : Nat) (c : Colour) (s : State) : (canvasPut n c s).params = s.params := rfl
@[simp] theorem canvasPut_eng (n : Nat) (c : Colour) (s : State) : (canvasPut n c s).eng = s.eng := rfl
@[simp] theorem canvasPut_status (n : Nat) (c : Colour) (s : State) : (canvasPut n c s).status = s.status := rfl
@[simp] theorem canvasPut_regs (n : Nat) (c : Colour) (s : State) : (canvasPut n c s).regs = s.regs := rfl
@[simp] theorem canvasPut_errInfo0 (n : Nat) (c : Colour) (s : State) : (canvasPut n c s).errInfo0 = s.errInfo0 := rfl
@[simp] theorem canvasPut_errInfo1 (n : Nat) (c : Colour) (s : State) : (canvasPut n c s).errInfo1 = s.errInfo1 := rfl
@[simp] theorem canvasPut_lzw (n : Nat) (c : Colour) (s : State) : (canvasPut n c s).lzw = s.lzw := rfl
@[simp] theorem canvasPut_bitPos (n : Nat) (c : Colour) (s : State) : (canvasPut n c s).bitPos = s.bitPos := rfl
@[simp] theorem canvasPut_pixCount (n : Nat) (c : Colour) (s : State) : (canvasPut n c s).pixCount = s.pixCount := rfl
@[simp] theorem canvasPut_progress (n : Nat) (c : Colour) (s : State) : (canvasPut n c s).progress = s.progress := rfl
@[simp] theorem canvasPut_work (n : Nat) (c : Colour) (s : State) : (canvasPut n c s).work = s.work := rfl
@[simp] theorem canvasPut_canvasLatch (n : Nat) (c : Colour) (s : State) :
    (canvasPut n c s).canvasLatch = s.canvasLatch := rfl
@[simp] theorem canvasPut_indexLatch (n : Nat) (c : Colour) (s : State) :
    (canvasPut n c s).indexLatch = s.indexLatch := rfl
@[simp] theorem canvasPut_frameLatch (n : Nat) (c : Colour) (s : State) :
    (canvasPut n c s).frameLatch = s.frameLatch := rfl
@[simp] theorem canvasPut_inMem (n : Nat) (c : Colour) (s : State) : (canvasPut n c s).inMem = s.inMem := rfl
@[simp] theorem canvasPut_idxMem (n : Nat) (c : Colour) (s : State) : (canvasPut n c s).idxMem = s.idxMem := rfl
@[simp] theorem canvasPut_gct (n : Nat) (c : Colour) (s : State) : (canvasPut n c s).gct = s.gct := rfl
@[simp] theorem canvasPut_lct (n : Nat) (c : Colour) (s : State) : (canvasPut n c s).lct = s.lct := rfl
@[simp] theorem canvasPut_canvas (n : Nat) (c : Colour) (s : State) :
    (canvasPut n c s).canvas = s.canvas.put n c := rfl
@[simp] theorem canvasPut_snap (n : Nat) (c : Colour) (s : State) : (canvasPut n c s).snap = s.snap := rfl
@[simp] theorem canvasPut_table (n : Nat) (c : Colour) (s : State) : (canvasPut n c s).table = s.table := rfl
@[simp] theorem canvasPut_canvasDraw (n : Nat) (c : Colour) (s : State) :
    (canvasPut n c s).canvasDraw = s.canvasDraw := rfl
@[simp] theorem canvasPut_draws (n : Nat) (c : Colour) (s : State) : (canvasPut n c s).draws = s.draws := rfl
@[simp] theorem canvasPut_host (n : Nat) (c : Colour) (s : State) : (canvasPut n c s).host = s.host := rfl

@[simp] theorem advanceCursor_params (s : State) : (advanceCursor s).params = s.params := rfl
@[simp] theorem advanceCursor_eng (s : State) : (advanceCursor s).eng = s.eng := rfl
@[simp] theorem advanceCursor_status (s : State) : (advanceCursor s).status = s.status := rfl
@[simp] theorem advanceCursor_regs (s : State) : (advanceCursor s).regs = s.regs := rfl
@[simp] theorem advanceCursor_errInfo0 (s : State) : (advanceCursor s).errInfo0 = s.errInfo0 := rfl
@[simp] theorem advanceCursor_errInfo1 (s : State) : (advanceCursor s).errInfo1 = s.errInfo1 := rfl
@[simp] theorem advanceCursor_lzw (s : State) : (advanceCursor s).lzw = { s.lzw with codeStart := s.bitPos } := rfl
@[simp] theorem advanceCursor_bitPos (s : State) :
    (advanceCursor s).bitPos = s.bitPos + s.lzw.width.setWidth 32 := rfl
@[simp] theorem advanceCursor_pixCount (s : State) : (advanceCursor s).pixCount = s.pixCount := rfl
@[simp] theorem advanceCursor_progress (s : State) : (advanceCursor s).progress = s.progress := rfl
@[simp] theorem advanceCursor_work (s : State) : (advanceCursor s).work = s.work := rfl
@[simp] theorem advanceCursor_canvasLatch (s : State) : (advanceCursor s).canvasLatch = s.canvasLatch := rfl
@[simp] theorem advanceCursor_indexLatch (s : State) : (advanceCursor s).indexLatch = s.indexLatch := rfl
@[simp] theorem advanceCursor_frameLatch (s : State) : (advanceCursor s).frameLatch = s.frameLatch := rfl
@[simp] theorem advanceCursor_inMem (s : State) : (advanceCursor s).inMem = s.inMem := rfl
@[simp] theorem advanceCursor_idxMem (s : State) : (advanceCursor s).idxMem = s.idxMem := rfl
@[simp] theorem advanceCursor_gct (s : State) : (advanceCursor s).gct = s.gct := rfl
@[simp] theorem advanceCursor_lct (s : State) : (advanceCursor s).lct = s.lct := rfl
@[simp] theorem advanceCursor_canvas (s : State) : (advanceCursor s).canvas = s.canvas := rfl
@[simp] theorem advanceCursor_snap (s : State) : (advanceCursor s).snap = s.snap := rfl
@[simp] theorem advanceCursor_table (s : State) : (advanceCursor s).table = s.table := rfl
@[simp] theorem advanceCursor_canvasDraw (s : State) : (advanceCursor s).canvasDraw = s.canvasDraw := rfl
@[simp] theorem advanceCursor_draws (s : State) : (advanceCursor s).draws = s.draws := rfl
@[simp] theorem advanceCursor_host (s : State) : (advanceCursor s).host = s.host := rfl

@[simp] theorem setPrev_params (c : Code) (s : State) : (setPrev c s).params = s.params := rfl
@[simp] theorem setPrev_eng (c : Code) (s : State) : (setPrev c s).eng = s.eng := rfl
@[simp] theorem setPrev_status (c : Code) (s : State) : (setPrev c s).status = s.status := rfl
@[simp] theorem setPrev_regs (c : Code) (s : State) : (setPrev c s).regs = s.regs := rfl
@[simp] theorem setPrev_errInfo0 (c : Code) (s : State) : (setPrev c s).errInfo0 = s.errInfo0 := rfl
@[simp] theorem setPrev_errInfo1 (c : Code) (s : State) : (setPrev c s).errInfo1 = s.errInfo1 := rfl
@[simp] theorem setPrev_lzw (c : Code) (s : State) :
    (setPrev c s).lzw = { s.lzw with prev := c, prevValid := true } := rfl
@[simp] theorem setPrev_bitPos (c : Code) (s : State) : (setPrev c s).bitPos = s.bitPos := rfl
@[simp] theorem setPrev_pixCount (c : Code) (s : State) : (setPrev c s).pixCount = s.pixCount := rfl
@[simp] theorem setPrev_progress (c : Code) (s : State) : (setPrev c s).progress = s.progress := rfl
@[simp] theorem setPrev_work (c : Code) (s : State) : (setPrev c s).work = s.work := rfl
@[simp] theorem setPrev_canvasLatch (c : Code) (s : State) : (setPrev c s).canvasLatch = s.canvasLatch := rfl
@[simp] theorem setPrev_indexLatch (c : Code) (s : State) : (setPrev c s).indexLatch = s.indexLatch := rfl
@[simp] theorem setPrev_frameLatch (c : Code) (s : State) : (setPrev c s).frameLatch = s.frameLatch := rfl
@[simp] theorem setPrev_inMem (c : Code) (s : State) : (setPrev c s).inMem = s.inMem := rfl
@[simp] theorem setPrev_idxMem (c : Code) (s : State) : (setPrev c s).idxMem = s.idxMem := rfl
@[simp] theorem setPrev_gct (c : Code) (s : State) : (setPrev c s).gct = s.gct := rfl
@[simp] theorem setPrev_lct (c : Code) (s : State) : (setPrev c s).lct = s.lct := rfl
@[simp] theorem setPrev_canvas (c : Code) (s : State) : (setPrev c s).canvas = s.canvas := rfl
@[simp] theorem setPrev_snap (c : Code) (s : State) : (setPrev c s).snap = s.snap := rfl
@[simp] theorem setPrev_table (c : Code) (s : State) : (setPrev c s).table = s.table := rfl
@[simp] theorem setPrev_canvasDraw (c : Code) (s : State) : (setPrev c s).canvasDraw = s.canvasDraw := rfl
@[simp] theorem setPrev_draws (c : Code) (s : State) : (setPrev c s).draws = s.draws := rfl
@[simp] theorem setPrev_host (c : Code) (s : State) : (setPrev c s).host = s.host := rfl

@[simp] theorem idxWrite_params (n : Nat) (v : Byte) (s : State) : (idxWrite n v s).params = s.params := rfl
@[simp] theorem idxWrite_eng (n : Nat) (v : Byte) (s : State) : (idxWrite n v s).eng = s.eng := rfl
@[simp] theorem idxWrite_status (n : Nat) (v : Byte) (s : State) : (idxWrite n v s).status = s.status := rfl
@[simp] theorem idxWrite_regs (n : Nat) (v : Byte) (s : State) : (idxWrite n v s).regs = s.regs := rfl
@[simp] theorem idxWrite_errInfo0 (n : Nat) (v : Byte) (s : State) : (idxWrite n v s).errInfo0 = s.errInfo0 := rfl
@[simp] theorem idxWrite_errInfo1 (n : Nat) (v : Byte) (s : State) : (idxWrite n v s).errInfo1 = s.errInfo1 := rfl
@[simp] theorem idxWrite_lzw (n : Nat) (v : Byte) (s : State) : (idxWrite n v s).lzw = s.lzw := rfl
@[simp] theorem idxWrite_bitPos (n : Nat) (v : Byte) (s : State) : (idxWrite n v s).bitPos = s.bitPos := rfl
@[simp] theorem idxWrite_pixCount (n : Nat) (v : Byte) (s : State) : (idxWrite n v s).pixCount = s.pixCount := rfl
@[simp] theorem idxWrite_progress (n : Nat) (v : Byte) (s : State) : (idxWrite n v s).progress = s.progress := rfl
@[simp] theorem idxWrite_work (n : Nat) (v : Byte) (s : State) : (idxWrite n v s).work = s.work := rfl
@[simp] theorem idxWrite_canvasLatch (n : Nat) (v : Byte) (s : State) :
    (idxWrite n v s).canvasLatch = s.canvasLatch := rfl
@[simp] theorem idxWrite_indexLatch (n : Nat) (v : Byte) (s : State) :
    (idxWrite n v s).indexLatch = s.indexLatch := rfl
@[simp] theorem idxWrite_frameLatch (n : Nat) (v : Byte) (s : State) :
    (idxWrite n v s).frameLatch = s.frameLatch := rfl
@[simp] theorem idxWrite_inMem (n : Nat) (v : Byte) (s : State) : (idxWrite n v s).inMem = s.inMem := rfl
@[simp] theorem idxWrite_idxMem (n : Nat) (v : Byte) (s : State) : (idxWrite n v s).idxMem = s.idxMem.put n v := rfl
@[simp] theorem idxWrite_gct (n : Nat) (v : Byte) (s : State) : (idxWrite n v s).gct = s.gct := rfl
@[simp] theorem idxWrite_lct (n : Nat) (v : Byte) (s : State) : (idxWrite n v s).lct = s.lct := rfl
@[simp] theorem idxWrite_canvas (n : Nat) (v : Byte) (s : State) : (idxWrite n v s).canvas = s.canvas := rfl
@[simp] theorem idxWrite_snap (n : Nat) (v : Byte) (s : State) : (idxWrite n v s).snap = s.snap := rfl
@[simp] theorem idxWrite_table (n : Nat) (v : Byte) (s : State) : (idxWrite n v s).table = s.table := rfl
@[simp] theorem idxWrite_canvasDraw (n : Nat) (v : Byte) (s : State) :
    (idxWrite n v s).canvasDraw = s.canvasDraw := rfl
@[simp] theorem idxWrite_draws (n : Nat) (v : Byte) (s : State) : (idxWrite n v s).draws = s.draws := rfl
@[simp] theorem idxWrite_host (n : Nat) (v : Byte) (s : State) : (idxWrite n v s).host = s.host := rfl

@[simp] theorem beginCanvasInit_params (s : State) : (beginCanvasInit s).params = s.params := rfl
@[simp] theorem beginCanvasInit_eng (s : State) : (beginCanvasInit s).eng = s.eng := rfl
@[simp] theorem beginCanvasInit_status (s : State) :
    (beginCanvasInit s).status = { s.status with canvasValid := false, framePending := false } := rfl
@[simp] theorem beginCanvasInit_regs (s : State) : (beginCanvasInit s).regs = s.regs := rfl
@[simp] theorem beginCanvasInit_errInfo0 (s : State) : (beginCanvasInit s).errInfo0 = s.errInfo0 := rfl
@[simp] theorem beginCanvasInit_errInfo1 (s : State) : (beginCanvasInit s).errInfo1 = s.errInfo1 := rfl
@[simp] theorem beginCanvasInit_lzw (s : State) : (beginCanvasInit s).lzw = s.lzw := rfl
@[simp] theorem beginCanvasInit_bitPos (s : State) : (beginCanvasInit s).bitPos = s.bitPos := rfl
@[simp] theorem beginCanvasInit_pixCount (s : State) : (beginCanvasInit s).pixCount = s.pixCount := rfl
@[simp] theorem beginCanvasInit_progress (s : State) : (beginCanvasInit s).progress = 0 := rfl
@[simp] theorem beginCanvasInit_work (s : State) : (beginCanvasInit s).work = s.work := rfl
@[simp] theorem beginCanvasInit_canvasLatch (s : State) : (beginCanvasInit s).canvasLatch = s.canvasLatch := rfl
@[simp] theorem beginCanvasInit_indexLatch (s : State) : (beginCanvasInit s).indexLatch = s.indexLatch := rfl
@[simp] theorem beginCanvasInit_frameLatch (s : State) : (beginCanvasInit s).frameLatch = s.frameLatch := rfl
@[simp] theorem beginCanvasInit_inMem (s : State) : (beginCanvasInit s).inMem = s.inMem := rfl
@[simp] theorem beginCanvasInit_idxMem (s : State) : (beginCanvasInit s).idxMem = s.idxMem := rfl
@[simp] theorem beginCanvasInit_gct (s : State) : (beginCanvasInit s).gct = s.gct := rfl
@[simp] theorem beginCanvasInit_lct (s : State) : (beginCanvasInit s).lct = s.lct := rfl
@[simp] theorem beginCanvasInit_canvas (s : State) : (beginCanvasInit s).canvas = s.canvas := rfl
@[simp] theorem beginCanvasInit_snap (s : State) : (beginCanvasInit s).snap = s.snap := rfl
@[simp] theorem beginCanvasInit_table (s : State) : (beginCanvasInit s).table = s.table := rfl
@[simp] theorem beginCanvasInit_canvasDraw (s : State) : (beginCanvasInit s).canvasDraw = s.canvasDraw := rfl
@[simp] theorem beginCanvasInit_draws (s : State) : (beginCanvasInit s).draws = s.draws := rfl
@[simp] theorem beginCanvasInit_host (s : State) : (beginCanvasInit s).host = s.host := rfl

@[simp] theorem latchCanvas_params (s : State) : (latchCanvas s).params = s.params := rfl
@[simp] theorem latchCanvas_eng (s : State) : (latchCanvas s).eng = .init := rfl
@[simp] theorem latchCanvas_status (s : State) : (latchCanvas s).status = s.status := rfl
@[simp] theorem latchCanvas_regs (s : State) : (latchCanvas s).regs = s.regs := rfl
@[simp] theorem latchCanvas_errInfo0 (s : State) : (latchCanvas s).errInfo0 = s.errInfo0 := rfl
@[simp] theorem latchCanvas_errInfo1 (s : State) : (latchCanvas s).errInfo1 = s.errInfo1 := rfl
@[simp] theorem latchCanvas_lzw (s : State) : (latchCanvas s).lzw = s.lzw := rfl
@[simp] theorem latchCanvas_bitPos (s : State) : (latchCanvas s).bitPos = s.bitPos := rfl
@[simp] theorem latchCanvas_pixCount (s : State) : (latchCanvas s).pixCount = s.pixCount := rfl
@[simp] theorem latchCanvas_progress (s : State) : (latchCanvas s).progress = s.progress := rfl
@[simp] theorem latchCanvas_work (s : State) : (latchCanvas s).work = { s.work with n := 0 } := rfl
@[simp] theorem latchCanvas_canvasLatch (s : State) :
    (latchCanvas s).canvasLatch =
      { cw := cwCfg s.regs, ch := chCfg s.regs, bgRgb := gctEntry s s.regs.bgIndex.toNat } := rfl
@[simp] theorem latchCanvas_indexLatch (s : State) : (latchCanvas s).indexLatch = s.indexLatch := rfl
@[simp] theorem latchCanvas_frameLatch (s : State) : (latchCanvas s).frameLatch = s.frameLatch := rfl
@[simp] theorem latchCanvas_inMem (s : State) : (latchCanvas s).inMem = s.inMem := rfl
@[simp] theorem latchCanvas_idxMem (s : State) : (latchCanvas s).idxMem = s.idxMem := rfl
@[simp] theorem latchCanvas_gct (s : State) : (latchCanvas s).gct = s.gct := rfl
@[simp] theorem latchCanvas_lct (s : State) : (latchCanvas s).lct = s.lct := rfl
@[simp] theorem latchCanvas_canvas (s : State) : (latchCanvas s).canvas = s.canvas := rfl
@[simp] theorem latchCanvas_snap (s : State) : (latchCanvas s).snap = s.snap := rfl
@[simp] theorem latchCanvas_table (s : State) : (latchCanvas s).table = s.table := rfl
@[simp] theorem latchCanvas_canvasDraw (s : State) : (latchCanvas s).canvasDraw = s.draws := rfl
@[simp] theorem latchCanvas_draws (s : State) : (latchCanvas s).draws = s.draws + 1 := rfl
@[simp] theorem latchCanvas_host (s : State) : (latchCanvas s).host = s.host := rfl

@[simp] theorem fillCell_params (s : State) : (fillCell s).params = s.params := rfl
@[simp] theorem fillCell_eng (s : State) : (fillCell s).eng = s.eng := rfl
@[simp] theorem fillCell_status (s : State) : (fillCell s).status = s.status := rfl
@[simp] theorem fillCell_regs (s : State) : (fillCell s).regs = s.regs := rfl
@[simp] theorem fillCell_errInfo0 (s : State) : (fillCell s).errInfo0 = s.errInfo0 := rfl
@[simp] theorem fillCell_errInfo1 (s : State) : (fillCell s).errInfo1 = s.errInfo1 := rfl
@[simp] theorem fillCell_lzw (s : State) : (fillCell s).lzw = s.lzw := rfl
@[simp] theorem fillCell_bitPos (s : State) : (fillCell s).bitPos = s.bitPos := rfl
@[simp] theorem fillCell_pixCount (s : State) : (fillCell s).pixCount = s.pixCount := rfl
@[simp] theorem fillCell_progress (s : State) : (fillCell s).progress = s.progress + 1 := rfl
@[simp] theorem fillCell_work (s : State) : (fillCell s).work = { s.work with n := s.work.n + 1 } := rfl
@[simp] theorem fillCell_canvasLatch (s : State) : (fillCell s).canvasLatch = s.canvasLatch := rfl
@[simp] theorem fillCell_indexLatch (s : State) : (fillCell s).indexLatch = s.indexLatch := rfl
@[simp] theorem fillCell_frameLatch (s : State) : (fillCell s).frameLatch = s.frameLatch := rfl
@[simp] theorem fillCell_inMem (s : State) : (fillCell s).inMem = s.inMem := rfl
@[simp] theorem fillCell_idxMem (s : State) : (fillCell s).idxMem = s.idxMem := rfl
@[simp] theorem fillCell_gct (s : State) : (fillCell s).gct = s.gct := rfl
@[simp] theorem fillCell_lct (s : State) : (fillCell s).lct = s.lct := rfl
@[simp] theorem fillCell_canvas (s : State) : (fillCell s).canvas = s.canvas.put s.work.n s.canvasLatch.bgRgb := rfl
@[simp] theorem fillCell_snap (s : State) : (fillCell s).snap = s.snap := rfl
@[simp] theorem fillCell_table (s : State) : (fillCell s).table = s.table := rfl
@[simp] theorem fillCell_canvasDraw (s : State) : (fillCell s).canvasDraw = s.canvasDraw := rfl
@[simp] theorem fillCell_draws (s : State) : (fillCell s).draws = s.draws := rfl
@[simp] theorem fillCell_host (s : State) : (fillCell s).host = s.host := rfl

@[simp] theorem latchFrame_params (s : State) : (latchFrame s).params = s.params := rfl
@[simp] theorem latchFrame_eng (s : State) : (latchFrame s).eng = .compV := rfl
@[simp] theorem latchFrame_status (s : State) : (latchFrame s).status = s.status := rfl
@[simp] theorem latchFrame_regs (s : State) : (latchFrame s).regs = s.regs := rfl
@[simp] theorem latchFrame_errInfo0 (s : State) : (latchFrame s).errInfo0 = s.errInfo0 := rfl
@[simp] theorem latchFrame_errInfo1 (s : State) : (latchFrame s).errInfo1 = s.errInfo1 := rfl
@[simp] theorem latchFrame_lzw (s : State) : (latchFrame s).lzw = s.lzw := rfl
@[simp] theorem latchFrame_bitPos (s : State) : (latchFrame s).bitPos = s.bitPos := rfl
@[simp] theorem latchFrame_pixCount (s : State) : (latchFrame s).pixCount = s.pixCount := rfl
@[simp] theorem latchFrame_progress (s : State) : (latchFrame s).progress = 0 := rfl
@[simp] theorem latchFrame_work (s : State) : (latchFrame s).work = { s.work with s := 0 } := rfl
@[simp] theorem latchFrame_canvasLatch (s : State) : (latchFrame s).canvasLatch = s.canvasLatch := rfl
@[simp] theorem latchFrame_indexLatch (s : State) : (latchFrame s).indexLatch = s.indexLatch := rfl
@[simp] theorem latchFrame_frameLatch (s : State) :
    (latchFrame s).frameLatch =
      { left := frameLeft s.regs, top := frameTop s.regs, w := s.indexLatch.idxW, h := s.indexLatch.idxH,
        interlace := interlaceFlag s.regs, ten := transpEn s.regs, tsel := (activeTable s.regs).1,
        disp := disposalOf s.regs, tidx := s.regs.transpIndex, tsize := BitVec.ofNat 9 (activeTable s.regs).2 } := rfl
@[simp] theorem latchFrame_inMem (s : State) : (latchFrame s).inMem = s.inMem := rfl
@[simp] theorem latchFrame_idxMem (s : State) : (latchFrame s).idxMem = s.idxMem := rfl
@[simp] theorem latchFrame_gct (s : State) : (latchFrame s).gct = s.gct := rfl
@[simp] theorem latchFrame_lct (s : State) : (latchFrame s).lct = s.lct := rfl
@[simp] theorem latchFrame_canvas (s : State) : (latchFrame s).canvas = s.canvas := rfl
@[simp] theorem latchFrame_snap (s : State) : (latchFrame s).snap = s.snap := rfl
@[simp] theorem latchFrame_table (s : State) : (latchFrame s).table = s.table := rfl
@[simp] theorem latchFrame_canvasDraw (s : State) : (latchFrame s).canvasDraw = s.canvasDraw := rfl
@[simp] theorem latchFrame_draws (s : State) : (latchFrame s).draws = s.draws := rfl
@[simp] theorem latchFrame_host (s : State) : (latchFrame s).host = s.host := rfl

@[simp] theorem countIndex_params (s : State) : (countIndex s).params = s.params := rfl
@[simp] theorem countIndex_eng (s : State) : (countIndex s).eng = s.eng := rfl
@[simp] theorem countIndex_status (s : State) : (countIndex s).status = s.status := rfl
@[simp] theorem countIndex_regs (s : State) : (countIndex s).regs = s.regs := rfl
@[simp] theorem countIndex_errInfo0 (s : State) : (countIndex s).errInfo0 = s.errInfo0 := rfl
@[simp] theorem countIndex_errInfo1 (s : State) : (countIndex s).errInfo1 = s.errInfo1 := rfl
@[simp] theorem countIndex_lzw (s : State) : (countIndex s).lzw = s.lzw := rfl
@[simp] theorem countIndex_bitPos (s : State) : (countIndex s).bitPos = s.bitPos := rfl
@[simp] theorem countIndex_pixCount (s : State) : (countIndex s).pixCount = s.pixCount := rfl
@[simp] theorem countIndex_progress (s : State) : (countIndex s).progress = s.progress + 1 := rfl
@[simp] theorem countIndex_work (s : State) : (countIndex s).work = { s.work with s := s.work.s + 1 } := rfl
@[simp] theorem countIndex_canvasLatch (s : State) : (countIndex s).canvasLatch = s.canvasLatch := rfl
@[simp] theorem countIndex_indexLatch (s : State) : (countIndex s).indexLatch = s.indexLatch := rfl
@[simp] theorem countIndex_frameLatch (s : State) : (countIndex s).frameLatch = s.frameLatch := rfl
@[simp] theorem countIndex_inMem (s : State) : (countIndex s).inMem = s.inMem := rfl
@[simp] theorem countIndex_idxMem (s : State) : (countIndex s).idxMem = s.idxMem := rfl
@[simp] theorem countIndex_gct (s : State) : (countIndex s).gct = s.gct := rfl
@[simp] theorem countIndex_lct (s : State) : (countIndex s).lct = s.lct := rfl
@[simp] theorem countIndex_canvas (s : State) : (countIndex s).canvas = s.canvas := rfl
@[simp] theorem countIndex_snap (s : State) : (countIndex s).snap = s.snap := rfl
@[simp] theorem countIndex_table (s : State) : (countIndex s).table = s.table := rfl
@[simp] theorem countIndex_canvasDraw (s : State) : (countIndex s).canvasDraw = s.canvasDraw := rfl
@[simp] theorem countIndex_draws (s : State) : (countIndex s).draws = s.draws := rfl
@[simp] theorem countIndex_host (s : State) : (countIndex s).host = s.host := rfl

@[simp] theorem beginDispose_params (s : State) : (beginDispose s).params = s.params := rfl
@[simp] theorem beginDispose_eng (s : State) : (beginDispose s).eng = s.eng := rfl
@[simp] theorem beginDispose_status (s : State) :
    (beginDispose s).status = { s.status with framePending := false } := rfl
@[simp] theorem beginDispose_regs (s : State) : (beginDispose s).regs = s.regs := rfl
@[simp] theorem beginDispose_errInfo0 (s : State) : (beginDispose s).errInfo0 = s.errInfo0 := rfl
@[simp] theorem beginDispose_errInfo1 (s : State) : (beginDispose s).errInfo1 = s.errInfo1 := rfl
@[simp] theorem beginDispose_lzw (s : State) : (beginDispose s).lzw = s.lzw := rfl
@[simp] theorem beginDispose_bitPos (s : State) : (beginDispose s).bitPos = s.bitPos := rfl
@[simp] theorem beginDispose_pixCount (s : State) : (beginDispose s).pixCount = s.pixCount := rfl
@[simp] theorem beginDispose_progress (s : State) : (beginDispose s).progress = 0 := rfl
@[simp] theorem beginDispose_work (s : State) : (beginDispose s).work = s.work := rfl
@[simp] theorem beginDispose_canvasLatch (s : State) : (beginDispose s).canvasLatch = s.canvasLatch := rfl
@[simp] theorem beginDispose_indexLatch (s : State) : (beginDispose s).indexLatch = s.indexLatch := rfl
@[simp] theorem beginDispose_frameLatch (s : State) : (beginDispose s).frameLatch = s.frameLatch := rfl
@[simp] theorem beginDispose_inMem (s : State) : (beginDispose s).inMem = s.inMem := rfl
@[simp] theorem beginDispose_idxMem (s : State) : (beginDispose s).idxMem = s.idxMem := rfl
@[simp] theorem beginDispose_gct (s : State) : (beginDispose s).gct = s.gct := rfl
@[simp] theorem beginDispose_lct (s : State) : (beginDispose s).lct = s.lct := rfl
@[simp] theorem beginDispose_canvas (s : State) : (beginDispose s).canvas = s.canvas := rfl
@[simp] theorem beginDispose_snap (s : State) : (beginDispose s).snap = s.snap := rfl
@[simp] theorem beginDispose_table (s : State) : (beginDispose s).table = s.table := rfl
@[simp] theorem beginDispose_canvasDraw (s : State) : (beginDispose s).canvasDraw = s.canvasDraw := rfl
@[simp] theorem beginDispose_draws (s : State) : (beginDispose s).draws = s.draws := rfl
@[simp] theorem beginDispose_host (s : State) : (beginDispose s).host = s.host := rfl

@[simp] theorem beginRegion_params (s : State) : (beginRegion s).params = s.params := rfl
@[simp] theorem beginRegion_eng (s : State) : (beginRegion s).eng = .disp := rfl
@[simp] theorem beginRegion_status (s : State) : (beginRegion s).status = s.status := rfl
@[simp] theorem beginRegion_regs (s : State) : (beginRegion s).regs = s.regs := rfl
@[simp] theorem beginRegion_errInfo0 (s : State) : (beginRegion s).errInfo0 = s.errInfo0 := rfl
@[simp] theorem beginRegion_errInfo1 (s : State) : (beginRegion s).errInfo1 = s.errInfo1 := rfl
@[simp] theorem beginRegion_lzw (s : State) : (beginRegion s).lzw = s.lzw := rfl
@[simp] theorem beginRegion_bitPos (s : State) : (beginRegion s).bitPos = s.bitPos := rfl
@[simp] theorem beginRegion_pixCount (s : State) : (beginRegion s).pixCount = s.pixCount := rfl
@[simp] theorem beginRegion_progress (s : State) : (beginRegion s).progress = s.progress := rfl
@[simp] theorem beginRegion_work (s : State) :
    (beginRegion s).work = { s.work with x := s.frameLatch.left.toNat, y := s.frameLatch.top.toNat } := rfl
@[simp] theorem beginRegion_canvasLatch (s : State) : (beginRegion s).canvasLatch = s.canvasLatch := rfl
@[simp] theorem beginRegion_indexLatch (s : State) : (beginRegion s).indexLatch = s.indexLatch := rfl
@[simp] theorem beginRegion_frameLatch (s : State) : (beginRegion s).frameLatch = s.frameLatch := rfl
@[simp] theorem beginRegion_inMem (s : State) : (beginRegion s).inMem = s.inMem := rfl
@[simp] theorem beginRegion_idxMem (s : State) : (beginRegion s).idxMem = s.idxMem := rfl
@[simp] theorem beginRegion_gct (s : State) : (beginRegion s).gct = s.gct := rfl
@[simp] theorem beginRegion_lct (s : State) : (beginRegion s).lct = s.lct := rfl
@[simp] theorem beginRegion_canvas (s : State) : (beginRegion s).canvas = s.canvas := rfl
@[simp] theorem beginRegion_snap (s : State) : (beginRegion s).snap = s.snap := rfl
@[simp] theorem beginRegion_table (s : State) : (beginRegion s).table = s.table := rfl
@[simp] theorem beginRegion_canvasDraw (s : State) : (beginRegion s).canvasDraw = s.canvasDraw := rfl
@[simp] theorem beginRegion_draws (s : State) : (beginRegion s).draws = s.draws := rfl
@[simp] theorem beginRegion_host (s : State) : (beginRegion s).host = s.host := rfl

@[simp] theorem beginLzw_params (s : State) : (beginLzw s).params = s.params := rfl
@[simp] theorem beginLzw_eng (s : State) : (beginLzw s).eng = s.eng := rfl
@[simp] theorem beginLzw_status (s : State) : (beginLzw s).status = { s.status with idxValid := false } := rfl
@[simp] theorem beginLzw_regs (s : State) : (beginLzw s).regs = s.regs := rfl
@[simp] theorem beginLzw_errInfo0 (s : State) : (beginLzw s).errInfo0 = s.errInfo0 := rfl
@[simp] theorem beginLzw_errInfo1 (s : State) : (beginLzw s).errInfo1 = s.errInfo1 := rfl
@[simp] theorem beginLzw_lzw (s : State) : (beginLzw s).lzw = s.lzw := rfl
@[simp] theorem beginLzw_bitPos (s : State) : (beginLzw s).bitPos = 0 := rfl
@[simp] theorem beginLzw_pixCount (s : State) : (beginLzw s).pixCount = 0 := rfl
@[simp] theorem beginLzw_progress (s : State) : (beginLzw s).progress = s.progress := rfl
@[simp] theorem beginLzw_work (s : State) : (beginLzw s).work = s.work := rfl
@[simp] theorem beginLzw_canvasLatch (s : State) : (beginLzw s).canvasLatch = s.canvasLatch := rfl
@[simp] theorem beginLzw_indexLatch (s : State) : (beginLzw s).indexLatch = s.indexLatch := rfl
@[simp] theorem beginLzw_frameLatch (s : State) : (beginLzw s).frameLatch = s.frameLatch := rfl
@[simp] theorem beginLzw_inMem (s : State) : (beginLzw s).inMem = s.inMem := rfl
@[simp] theorem beginLzw_idxMem (s : State) : (beginLzw s).idxMem = s.idxMem := rfl
@[simp] theorem beginLzw_gct (s : State) : (beginLzw s).gct = s.gct := rfl
@[simp] theorem beginLzw_lct (s : State) : (beginLzw s).lct = s.lct := rfl
@[simp] theorem beginLzw_canvas (s : State) : (beginLzw s).canvas = s.canvas := rfl
@[simp] theorem beginLzw_snap (s : State) : (beginLzw s).snap = s.snap := rfl
@[simp] theorem beginLzw_table (s : State) : (beginLzw s).table = s.table := rfl
@[simp] theorem beginLzw_canvasDraw (s : State) : (beginLzw s).canvasDraw = s.canvasDraw := rfl
@[simp] theorem beginLzw_draws (s : State) : (beginLzw s).draws = s.draws := rfl
@[simp] theorem beginLzw_host (s : State) : (beginLzw s).host = s.host := rfl

@[simp] theorem latchStream_params (s : State) : (latchStream s).params = s.params := rfl
@[simp] theorem latchStream_eng (s : State) : (latchStream s).eng = s.eng := rfl
@[simp] theorem latchStream_status (s : State) : (latchStream s).status = s.status := rfl
@[simp] theorem latchStream_regs (s : State) : (latchStream s).regs = s.regs := rfl
@[simp] theorem latchStream_errInfo0 (s : State) : (latchStream s).errInfo0 = s.errInfo0 := rfl
@[simp] theorem latchStream_errInfo1 (s : State) : (latchStream s).errInfo1 = s.errInfo1 := rfl
@[simp] theorem latchStream_lzw (s : State) : (latchStream s).lzw = s.lzw := rfl
@[simp] theorem latchStream_bitPos (s : State) : (latchStream s).bitPos = s.bitPos := rfl
@[simp] theorem latchStream_pixCount (s : State) : (latchStream s).pixCount = s.pixCount := rfl
@[simp] theorem latchStream_progress (s : State) : (latchStream s).progress = s.progress := rfl
@[simp] theorem latchStream_work (s : State) : (latchStream s).work = s.work := rfl
@[simp] theorem latchStream_canvasLatch (s : State) : (latchStream s).canvasLatch = s.canvasLatch := rfl
@[simp] theorem latchStream_indexLatch (s : State) :
    (latchStream s).indexLatch =
      { idxW := frameW s.regs, idxH := frameH s.regs, lm := s.regs.lzwMin, lbase := s.regs.inBase,
        llen := s.regs.inLen } := rfl
@[simp] theorem latchStream_frameLatch (s : State) : (latchStream s).frameLatch = s.frameLatch := rfl
@[simp] theorem latchStream_inMem (s : State) : (latchStream s).inMem = s.inMem := rfl
@[simp] theorem latchStream_idxMem (s : State) : (latchStream s).idxMem = s.idxMem := rfl
@[simp] theorem latchStream_gct (s : State) : (latchStream s).gct = s.gct := rfl
@[simp] theorem latchStream_lct (s : State) : (latchStream s).lct = s.lct := rfl
@[simp] theorem latchStream_canvas (s : State) : (latchStream s).canvas = s.canvas := rfl
@[simp] theorem latchStream_snap (s : State) : (latchStream s).snap = s.snap := rfl
@[simp] theorem latchStream_table (s : State) : (latchStream s).table = s.table := rfl
@[simp] theorem latchStream_canvasDraw (s : State) : (latchStream s).canvasDraw = s.canvasDraw := rfl
@[simp] theorem latchStream_draws (s : State) : (latchStream s).draws = s.draws := rfl
@[simp] theorem latchStream_host (s : State) : (latchStream s).host = s.host := rfl

end Sys2Proof.Machine
end

