-- ==== Sys2Proof/Laws/Compositor.lean ====
section
/-! SUPPORT. Everything the compositor's shared operations do: SnapCopy, one pixel of COMPOSE (R182) and of DISPOSE
(R193), the cells of the canvas (R53), and the walk over REGION (R196). -/

namespace Sys2Proof.Machine

/-! Cells. -/

/-- A pixel inside the canvas lies in a cell below CW × CH (R77). -/
theorem cellOf_lt {s : State} {x y : Nat} (hx : x < s.canvasLatch.cw.toNat) (hy : y < s.canvasLatch.ch.toNat) :
    cellOf s x y < canvasArea s := by
  unfold cellOf canvasArea
  have h1 : (y + 1) * s.canvasLatch.cw.toNat ≤ s.canvasLatch.ch.toNat * s.canvasLatch.cw.toNat :=
    Nat.mul_le_mul_right _ hy
  rw [Nat.add_mul, Nat.one_mul] at h1
  rw [Nat.mul_comm s.canvasLatch.cw.toNat]
  omega

/-- No two pixels of the canvas share a cell. -/
theorem cellOf_inj {s : State} {x y x' y' : Nat} (hx : x < s.canvasLatch.cw.toNat) (hx' : x' < s.canvasLatch.cw.toNat)
    (h : cellOf s x y = cellOf s x' y') : x = x' ∧ y = y' := by
  unfold cellOf at h
  have hy : y = y' := by
    have h1 : (y * s.canvasLatch.cw.toNat + x) / s.canvasLatch.cw.toNat = y := by
      rw [Nat.mul_comm, Nat.mul_add_div (by omega), Nat.div_eq_of_lt hx, Nat.add_zero]
    have h2 : (y' * s.canvasLatch.cw.toNat + x') / s.canvasLatch.cw.toNat = y' := by
      rw [Nat.mul_comm, Nat.mul_add_div (by omega), Nat.div_eq_of_lt hx', Nat.add_zero]
    rw [← h1, ← h2, h]
  subst hy
  exact ⟨by omega, rfl⟩

theorem canvasCell_canvasPut (n k : Nat) (c : Colour) (s : State) :
    canvasCell (canvasPut n c s) k = if k = n then c else canvasCell s k := by
  simp only [canvasCell, canvasPut, Store.get_put]

/-- What a legal size is (R29, R33). -/
theorem sizeLegal_iff {maxDim capacity w h : Nat} :
    sizeLegal maxDim capacity w h = true ↔ 0 < w ∧ 0 < h ∧ w ≤ maxDim ∧ h ≤ maxDim ∧ w * h ≤ capacity := by
  simp only [sizeLegal, Bool.and_eq_true, decide_eq_true_eq, Nat.pos_iff_ne_zero, and_assoc]

/-! SnapCopy. -/

theorem snapCopy_eq (s : State) : snapCopy s = { s with snap := (snapCopy s).snap } := rfl

/-- SnapCopy copies the cells below CW × CH and no other (R76). -/
theorem snapCell_snapCopy (s : State) (n : Nat) :
    snapCell (snapCopy s) n = if n < canvasArea s then canvasCell s n else snapCell s n := by
  simp only [snapCell, snapCopy, Store.get_fillBelow]

/-! One pixel. -/

/-- A pixel of COMPOSE writes CANVAS and nothing else (R182). -/
theorem writePixel_eq (s : State) : writePixel s = { s with canvas := (writePixel s).canvas } := by
  unfold writePixel; dsimp only; split
  · rfl
  · split <;> rfl

/-- It writes its own cell, if it is neither transparent nor off the canvas (R182 to R184). -/
theorem canvasCell_writePixel (s : State) (n : Nat) :
    canvasCell (writePixel s) n =
      if transparent s.frameLatch (idxByte s s.work.s) = false ∧ inside s.canvasLatch s.frameLatch s.work.s = true
          ∧ n = cellOf s (pixelX s.frameLatch s.work.s) (pixelY s.frameLatch s.work.s)
      then tableColour s (idxByte s s.work.s).toNat else canvasCell s n := by
  unfold writePixel
  dsimp only
  split
  · rename_i h; rw [if_neg]; intro hh; rw [h] at hh; exact absurd hh.1 (by decide)
  · rename_i h
    split
    · rename_i hi
      rw [canvasWrite, canvasCell_canvasPut]
      exact if_congr (by simp [h, hi]) rfl rfl
    · rename_i hi; rw [if_neg]; exact fun hh => hi hh.2.1

theorem writePixel_wf {s : State} (h : s.canvas.wf = true) : (writePixel s).canvas.wf = true := by
  unfold writePixel; dsimp only; split
  · exact h
  · split
    · exact Store.put_wf _ _ h
    · exact h

theorem writePixel_below {s : State} {bound : Nat} (hb : canvasArea s ≤ bound) (h : s.canvas.below bound = true) :
    (writePixel s).canvas.below bound = true := by
  unfold writePixel; dsimp only; split
  · exact h
  · split
    · rename_i hi
      simp only [inside, Bool.and_eq_true, decide_eq_true_eq] at hi
      exact Store.put_below _ (Nat.lt_of_lt_of_le (cellOf_lt hi.1 hi.2) hb) h
    · exact h

/-- A restored pixel writes CANVAS and nothing else (R193). -/
theorem restorePixel_eq (s : State) : restorePixel s = { s with canvas := (restorePixel s).canvas } := by
  unfold restorePixel; split
  · rfl
  · split <;> rfl

theorem restorePixel_wf {s : State} (h : s.canvas.wf = true) : (restorePixel s).canvas.wf = true := by
  unfold restorePixel; split
  · exact Store.put_wf _ _ h
  · split
    · exact Store.put_wf _ _ h
    · exact h

theorem restorePixel_below {s : State} {bound : Nat} (hc : cellOf s s.work.x s.work.y < bound)
    (h : s.canvas.below bound = true) : (restorePixel s).canvas.below bound = true := by
  unfold restorePixel; split
  · exact Store.put_below _ hc h
  · split
    · exact Store.put_below _ hc h
    · exact h

/-! REGION. -/

/-- A position of REGION is inside the canvas and the frame's box (R196). -/
theorem inRegion_iff (c : CanvasLatch) (f : FrameLatch) (x y : Nat) :
    inRegion c f x y = true ↔ f.left.toNat ≤ x ∧ x < f.left.toNat + f.w.toNat ∧ x < c.cw.toNat
      ∧ f.top.toNat ≤ y ∧ y < f.top.toNat + f.h.toNat ∧ y < c.ch.toNat := by
  simp only [inRegion, regionRight, regionBottom, Bool.and_eq_true, decide_eq_true_eq, Nat.lt_min]
  omega

/-- The walk stays in REGION (R193). -/
theorem nextInRegion_mem {c : CanvasLatch} {f : FrameLatch} {x y : Nat} {p : Nat × Nat}
    (h : inRegion c f x y = true) (hn : nextInRegion c f x y = some p) : inRegion c f p.1 p.2 = true := by
  simp only [inRegion, Bool.and_eq_true, decide_eq_true_eq] at h ⊢
  unfold nextInRegion at hn
  split at hn
  · cases hn; dsimp only; omega
  · split at hn
    · cases hn; dsimp only; omega
    · cases hn

/-- The walk starts in REGION (R190). -/
theorem inRegion_start {c : CanvasLatch} {f : FrameLatch} (h : regionEmpty c f = false) :
    inRegion c f f.left.toNat f.top.toNat = true := by
  simp only [regionEmpty, Bool.or_eq_false_iff, decide_eq_false_iff_not] at h
  simp only [inRegion, Bool.and_eq_true, decide_eq_true_eq]
  omega

end Sys2Proof.Machine
end

