-- ==== Sys2Proof/Laws/Decode.lean ====
section
/-! SUPPORT. What the decoder answers: one lemma for every class of R97 and every row of R92 and R93. -/

namespace Sys2Proof

/-- The class of a code, with the conditions that select it: those of R97, each after the ones before it fail. -/
theorem decodeCode_cases (ctx : CodeCtx) (c : Code) :
    (c.toNat = 2 ^ ctx.m ∧ decodeCode ctx c = .lzwClear c)
    ∨ (c.toNat = 2 ^ ctx.m + 1 ∧ decodeCode ctx c = .lzwEnd c)
    ∨ (ctx.prevValid = false ∧ c.toNat < 2 ^ ctx.m ∧ decodeCode ctx c = .lzwFirst c)
    ∨ (ctx.prevValid = true
        ∧ (c.toNat < 2 ^ ctx.m ∨ (2 ^ ctx.m + 2 ≤ c.toNat ∧ c.toNat < ctx.nextFree)) ∧ decodeCode ctx c = .lzwHit c)
    ∨ (ctx.prevValid = true ∧ 2 ^ ctx.m + 2 ≤ c.toNat ∧ c.toNat = ctx.nextFree ∧ ctx.nextFree < 4096
        ∧ decodeCode ctx c = .lzwKwkwk c)
    ∨ (2 ^ ctx.m + 2 ≤ c.toNat ∧ (ctx.prevValid = true → ctx.nextFree ≤ c.toNat
        ∧ (c.toNat = ctx.nextFree → 4096 ≤ ctx.nextFree)) ∧ decodeCode ctx c = .lzwInvalid c) := by
  unfold decodeCode
  by_cases h1 : c.toNat = 2 ^ ctx.m
  · exact .inl ⟨h1, if_pos h1⟩
  rw [if_neg h1]
  by_cases h2 : c.toNat = 2 ^ ctx.m + 1
  · exact .inr (.inl ⟨h2, if_pos h2⟩)
  rw [if_neg h2]
  by_cases h3 : ctx.prevValid = false ∧ c.toNat < 2 ^ ctx.m
  · exact .inr (.inr (.inl ⟨h3.1, h3.2, if_pos h3⟩))
  rw [if_neg h3]
  by_cases h4 : ctx.prevValid = true
      ∧ (c.toNat < 2 ^ ctx.m ∨ (2 ^ ctx.m + 2 ≤ c.toNat ∧ c.toNat < ctx.nextFree))
  · exact .inr (.inr (.inr (.inl ⟨h4.1, h4.2, if_pos h4⟩)))
  rw [if_neg h4]
  by_cases h5 : ctx.prevValid = true ∧ c.toNat = ctx.nextFree ∧ ctx.nextFree < 4096
  · refine .inr (.inr (.inr (.inr (.inl ⟨h5.1, ?_, h5.2.1, h5.2.2, if_pos h5⟩))))
    have : ¬ c.toNat < 2 ^ ctx.m := fun h => h4 ⟨h5.1, .inl h⟩
    omega
  rw [if_neg h5]
  refine .inr (.inr (.inr (.inr (.inr ⟨?_, fun hv => ⟨?_, fun he => ?_⟩, rfl⟩))))
  · by_cases hv : ctx.prevValid = true
    · have : ¬ c.toNat < 2 ^ ctx.m := fun h => h4 ⟨hv, .inl h⟩
      omega
    · have : ¬ c.toNat < 2 ^ ctx.m := fun h => h3 ⟨by simpa using hv, h⟩
      omega
  · have h6 : ¬ c.toNat < 2 ^ ctx.m := fun h => h4 ⟨hv, .inl h⟩
    have h7 : ¬ (2 ^ ctx.m + 2 ≤ c.toNat ∧ c.toNat < ctx.nextFree) := fun h => h4 ⟨hv, .inr h⟩
    omega
  · have : ¬ ctx.nextFree < 4096 := fun h => h5 ⟨hv, he, h⟩
    omega

/-! The fields of a word built as R91 lays it out. -/

@[simp] theorem cmdOp_append (rsvd : BitVec 28) (op : BitVec 4) : cmdOp (rsvd ++ op : BitVec 32) = op := by
  ext i hi
  have h : (rsvd ++ op).getLsbD i = _ := BitVec.getLsbD_append
  simpa [cmdOp, hi] using h

@[simp] theorem cmdRsvd_append (rsvd : BitVec 28) (op : BitVec 4) : cmdRsvd (rsvd ++ op : BitVec 32) = rsvd := by
  ext i hi
  have h : (rsvd ++ op).getLsbD (4 + i) = _ := BitVec.getLsbD_append
  simpa [cmdRsvd, BitVec.getLsbD_eq_getElem hi] using h

/-- A word is its two fields (R91). -/
theorem cmdRsvd_append_cmdOp (w : Word) : (cmdRsvd w ++ cmdOp w : BitVec 32) = w := by
  apply BitVec.eq_of_getLsbD_eq
  intro i hi
  have h : (cmdRsvd w ++ cmdOp w).getLsbD i = _ := BitVec.getLsbD_append
  refine h.trans ?_
  by_cases h4 : i < 4
  · simp [cmdOp, h4]
  · simp [cmdRsvd, h4, show i - 4 < 28 by omega, show 4 + (i - 4) = i by omega]

end Sys2Proof
end

