-- ==== Sys2Proof/Laws/Lzw.lean ====
section
/-! SUPPORT. Everything the shared operations of the LZW decompressor do: NEXTCODE (R120), INIT_TABLE (R132), STR (R55),
EMIT (R142), ADD (R138), and the stop at width×height (R144). -/

namespace Sys2Proof.Machine

/-! EMIT. -/

theorem emitIndex_eq (v : Byte) (s : State) :
    emitIndex v s = { s with idxMem := (emitIndex v s).idxMem, pixCount := (emitIndex v s).pixCount } := by
  unfold emitIndex; split <;> rfl

/-- EMIT changes IDX_MEM and PIX_COUNT and nothing else. -/
theorem emit_eq (str : List Byte) (s : State) :
    emit str s = { s with idxMem := (emit str s).idxMem, pixCount := (emit str s).pixCount } := by
  induction str generalizing s with
  | nil => rfl
  | cons v vs ih =>
    simp only [emit]
    rw [ih (emitIndex v s), emitIndex_eq v s]

theorem outLength_emitIndex (v : Byte) (s : State) : outLength (emitIndex v s) = outLength s := by
  rw [emitIndex_eq]; rfl

theorem emit_wf {s : State} (str : List Byte) (h : s.idxMem.wf = true) : (emit str s).idxMem.wf = true := by
  induction str generalizing s with
  | nil => exact h
  | cons v vs ih =>
    refine ih ?_
    unfold emitIndex
    split
    · exact Store.put_wf _ _ h
    · exact h

theorem emit_below {s : State} {bound : Nat} (str : List Byte) (hn : outLength s ≤ bound)
    (h : s.idxMem.below bound = true) : (emit str s).idxMem.below bound = true := by
  induction str generalizing s with
  | nil => exact h
  | cons v vs ih =>
    refine ih (by rw [outLength_emitIndex]; exact hn) ?_
    unfold emitIndex
    split
    · rename_i hlt; exact Store.put_below _ (Nat.lt_of_lt_of_le hlt hn) h
    · exact h

theorem pixCount_emitIndex (v : Byte) {s : State} (hn : outLength s < 2 ^ 32) (hp : s.pixCount.toNat ≤ outLength s) :
    (emitIndex v s).pixCount.toNat = min (outLength s) (s.pixCount.toNat + 1) := by
  unfold emitIndex
  split
  · simp only [BitVec.toNat_add, show (1 : Word).toNat = 1 from rfl]; omega
  · omega

/-- EMIT counts the indices it stores, and stops at N (R142). -/
theorem pixCount_emit (str : List Byte) {s : State} (hn : outLength s < 2 ^ 32)
    (hp : s.pixCount.toNat ≤ outLength s) :
    (emit str s).pixCount.toNat = min (outLength s) (s.pixCount.toNat + str.length) := by
  induction str generalizing s with
  | nil => simp only [emit, List.length_nil]; omega
  | cons v vs ih =>
    have h1 := pixCount_emitIndex v hn hp
    have h2 := outLength_emitIndex v s
    simp only [emit, List.length_cons]
    rw [ih (by omega) (by omega), h1, h2]
    omega

theorem idxByte_emitIndex (v : Byte) (s : State) (n : Nat) :
    idxByte (emitIndex v s) n =
      if n = s.pixCount.toNat ∧ s.pixCount.toNat < outLength s then v else idxByte s n := by
  unfold emitIndex
  split
  · rename_i hlt
    simp only [idxByte, idxWrite, Store.get_put, hlt, and_true]
  · rename_i hlt
    rw [if_neg (fun h => hlt h.2)]

/-- EMIT stores the string's indices in stream order from PIX_COUNT on, and touches no other byte (R142). -/
theorem idxByte_emit (str : List Byte) {s : State} (hn : outLength s < 2 ^ 32) (hp : s.pixCount.toNat ≤ outLength s)
    (n : Nat) :
    idxByte (emit str s) n =
      if s.pixCount.toNat ≤ n ∧ n < min (outLength s) (s.pixCount.toNat + str.length)
      then str.getD (n - s.pixCount.toNat) 0 else idxByte s n := by
  induction str generalizing s with
  | nil => rw [if_neg (by simp only [List.length_nil]; omega)]; rfl
  | cons v vs ih =>
    have h1 := pixCount_emitIndex v hn hp
    have h2 := outLength_emitIndex v s
    simp only [emit, List.length_cons]
    rw [ih (by omega) (by omega), h1, h2, idxByte_emitIndex]
    by_cases hlt : s.pixCount.toNat < outLength s
    · by_cases hn0 : n = s.pixCount.toNat
      · rw [if_neg (by omega), if_pos ⟨hn0, hlt⟩, if_pos (by omega), hn0, Nat.sub_self]; rfl
      · by_cases hr : s.pixCount.toNat ≤ n ∧ n < min (outLength s) (s.pixCount.toNat + (vs.length + 1))
        · rw [if_pos (by omega), if_pos hr]
          obtain ⟨d, hd⟩ : ∃ d, n - s.pixCount.toNat = d + 1 := ⟨n - s.pixCount.toNat - 1, by omega⟩
          rw [hd, show n - min (outLength s) (s.pixCount.toNat + 1) = d by omega]; rfl
        · rw [if_neg (by omega), if_neg hr, if_neg (by omega)]
    · rw [if_neg (by omega), if_neg (by omega), if_neg (by omega)]

/-! ADD. -/

/-- ADD changes the code table, NEXT_FREE and WIDTH and nothing else. -/
theorem addSlot_eq (q : Code) (k : Byte) (s : State) :
    addSlot q k s = { s with
      table := (addSlot q k s).table
      lzw := { s.lzw with nextFree := (addSlot q k s).lzw.nextFree, width := (addSlot q k s).lzw.width } } := by
  unfold addSlot; dsimp only; split <;> rfl

/-- ADD builds slot NEXT_FREE while the table is not full (R138, R139). -/
theorem slotAt_addSlot (q : Code) (k : Byte) (s : State) (n : Nat) :
    slotAt (addSlot q k s) n =
      if s.lzw.nextFree.toNat < 4096 ∧ n = s.lzw.nextFree.toNat then { prefixCode := some q, suffixIdx := k }
      else slotAt s n := by
  unfold addSlot
  dsimp only
  split
  · rename_i h; simp only [slotAt, Store.get_put, h, true_and]
  · rename_i h; rw [if_neg (fun hh => h hh.1)]

theorem nextFree_addSlot (q : Code) (k : Byte) (s : State) :
    (addSlot q k s).lzw.nextFree.toNat =
      if s.lzw.nextFree.toNat < 4096 then s.lzw.nextFree.toNat + 1 else s.lzw.nextFree.toNat := by
  unfold addSlot
  dsimp only
  split
  · simp only [BitVec.toNat_add, show (1 : BitVec 13).toNat = 1 from rfl]; omega
  · rfl

theorem width_addSlot (q : Code) (k : Byte) (s : State) :
    (addSlot q k s).lzw.width =
      if s.lzw.nextFree.toNat < 4096 then grownWidth s.lzw.width (s.lzw.nextFree.toNat + 1) else s.lzw.width := by
  unfold addSlot; dsimp only; split <;> rfl

theorem addSlot_wf {q : Code} {k : Byte} {s : State} (h : s.table.wf = true) : (addSlot q k s).table.wf = true := by
  unfold addSlot
  dsimp only
  split
  · exact Store.put_wf _ _ h
  · exact h

theorem addSlot_below {q : Code} {k : Byte} {s : State} (h : s.table.below 4096 = true) :
    (addSlot q k s).table.below 4096 = true := by
  unfold addSlot
  dsimp only
  split
  · rename_i hlt; exact Store.put_below _ hlt h
  · exact h

/-! INIT_TABLE. -/

/-- INIT_TABLE makes every root its own string and leaves the other slots as they are (R132). -/
theorem slotAt_initTable (s : State) (n : Nat) :
    slotAt (initTable s) n =
      if n < 2 ^ s.indexLatch.lm.toNat then { prefixCode := none, suffixIdx := BitVec.ofNat 8 n } else slotAt s n := by
  simp only [slotAt, initTable, Store.get_fillBelow]

theorem initTable_eq (s : State) :
    initTable s = { s with table := (initTable s).table, lzw := (initTable s).lzw } := rfl

theorem pow_le_of_legalMinCode {m : Nat} (h : legalMinCode m = true) : 2 ^ 2 ≤ 2 ^ m ∧ 2 ^ m ≤ 2 ^ 8 := by
  simp only [legalMinCode, Bool.and_eq_true, decide_eq_true_eq] at h
  exact ⟨Nat.pow_le_pow_right (by omega) h.1, Nat.pow_le_pow_right (by omega) h.2⟩

theorem initTable_wf {s : State} (h : s.table.wf = true) : (initTable s).table.wf = true :=
  Store.fillBelow_wf _ _ h

theorem initTable_below {s : State} (hm : legalMinCode s.indexLatch.lm.toNat = true)
    (h : s.table.below 4096 = true) : (initTable s).table.below 4096 = true :=
  Store.fillBelow_below _ (by have := (pow_le_of_legalMinCode hm).2; omega) h

theorem nextFree_initTable {s : State} (hm : legalMinCode s.indexLatch.lm.toNat = true) :
    (initTable s).lzw.nextFree.toNat = 2 ^ s.indexLatch.lm.toNat + 2 := by
  have := (pow_le_of_legalMinCode hm).2
  simp only [initTable, BitVec.toNat_ofNat]
  exact Nat.mod_eq_of_lt (by omega)

theorem width_initTable {s : State} (hm : legalMinCode s.indexLatch.lm.toNat = true) :
    (initTable s).lzw.width.toNat = s.indexLatch.lm.toNat + 1 := by
  simp only [legalMinCode, Bool.and_eq_true, decide_eq_true_eq] at hm
  simp only [initTable, BitVec.toNat_ofNat]
  omega

/-! NEXTCODE. -/

theorem codeOfBits_lt (bits : List Bool) : codeOfBits bits < 2 ^ bits.length := by
  induction bits with
  | nil => simp [codeOfBits]
  | cons b bs ih =>
    simp only [codeOfBits, List.length_cons, Nat.pow_succ]
    have := Bool.toNat_le b
    omega

theorem codeOfBits_testBit (bits : List Bool) (i : Nat) : (codeOfBits bits).testBit i = bits.getD i false := by
  induction bits generalizing i with
  | nil => simp [codeOfBits]
  | cons b bs ih =>
    cases i with
    | zero => cases b <;> simp [codeOfBits, Nat.testBit_zero]
    | succ i =>
      simp only [codeOfBits, Nat.testBit_succ, List.getD_cons_succ]
      rw [← ih i]
      congr 1
      have := Bool.toNat_le b
      omega

/-- Bit i of the code at the cursor is stream bit BIT_POS + i, for i < WIDTH (R120). -/
theorem codeAtCursor_bit (s : State) {i : Nat} (hi : i < 12) :
    (codeAtCursor s).getLsbD i = (decide (i < s.lzw.width.toNat) && inBit s (s.bitPos.toNat + i)) := by
  simp only [codeAtCursor, BitVec.getLsbD_ofNat, hi, decide_true, Bool.true_and, codeOfBits_testBit]
  by_cases h : i < s.lzw.width.toNat <;> simp [List.getD, h]

/-- The code at the cursor has WIDTH bits (R120). -/
theorem codeAtCursor_lt (s : State) : (codeAtCursor s).toNat < 2 ^ s.lzw.width.toNat := by
  have h := codeOfBits_lt ((List.range s.lzw.width.toNat).map fun i => inBit s (s.bitPos.toNat + i))
  simp only [List.length_map, List.length_range] at h
  simp only [codeAtCursor, BitVec.toNat_ofNat]
  exact Nat.lt_of_le_of_lt (Nat.mod_le _ _) h

/-- BIT_POS moves past the code (R120). -/
theorem bitPos_advanceCursor (s : State) (h : s.bitPos.toNat + s.lzw.width.toNat < 2 ^ 32) :
    (advanceCursor s).bitPos.toNat = s.bitPos.toNat + s.lzw.width.toNat := by
  have := s.lzw.width.isLt
  simp only [advanceCursor_bitPos, BitVec.toNat_add, BitVec.toNat_setWidth]
  omega

/-! STR. -/

theorem strChain_congr {s t : State} (h : ∀ k, slotAt t k = slotAt s k) (fuel k : Nat) :
    strChain t fuel k = strChain s fuel k := by
  induction fuel generalizing k with
  | zero => rfl
  | succ n ih => simp only [strChain, h, ih]

theorem strChain_ne_nil (s : State) (fuel k : Nat) : strChain s (fuel + 1) k ≠ [] := by
  simp only [strChain]
  split <;> simp

/-- Every string is non-empty (R56). -/
theorem strOf_ne_nil (s : State) (c : Code) : strOf s c ≠ [] := strChain_ne_nil s 4095 c.toNat

theorem emit_slotAt (str : List Byte) (s : State) (k : Nat) : slotAt (emit str s) k = slotAt s k := by
  rw [emit_eq]; rfl

/-! The stop at width×height. -/

theorem finishIfComplete_open {s : State} (h : s.pixCount.toNat ≠ outLength s) : finishIfComplete s = s := by
  unfold finishIfComplete; rw [if_neg h]

theorem finishIfComplete_complete {s : State} (h : s.pixCount.toNat = outLength s) :
    finishIfComplete s = finish { s with status := { s.status with idxValid := true } } := by
  unfold finishIfComplete; rw [if_pos h]

/-- Any fuel above the slot's number follows its chain to the root, since PREFIX[k] < k (R56, log 16). -/
theorem strChain_of_lt {s : State} (hs : LzwRunning s) {k : Nat} (hk : initialised s k) {fuel : Nat} (hf : k < fuel) :
    strChain s fuel k = strChain s (k + 1) k := by
  induction k using Nat.strong_induction_on generalizing fuel with
  | _ k ih =>
    obtain ⟨fuel, rfl⟩ : ∃ n, fuel = n + 1 := ⟨fuel - 1, by omega⟩
    rcases hk with hr | ⟨hlow, hhigh⟩
    · simp only [strChain, (hs.roots k hr).1]
    · obtain ⟨q, hq, hqk, hclr, heoi, -⟩ := hs.built k hlow hhigh
      have hqi : initialised s q.toNat := by unfold initialised; omega
      simp only [strChain, hq, ih q.toNat hqk hqi (show q.toNat < fuel by omega), ih q.toNat hqk hqi hqk]

end Sys2Proof.Machine
end

