-- ==== Sys2Proof/Laws/PerInstr.lean ====
section
/-! SUPPORT. The family RoundTrip: for each constructor, decoding its encoding gives it back, in every engine state the
encoding is of that class in (R91 to R93, R97). -/

namespace Sys2Proof.Laws.RoundTrip

/-- In every engine state in which an instruction's encoding is of its row, decoding the encoding gives it back. -/
def Statement (i : Instr) : Prop := ∀ ctx : CodeCtx, i.fits ctx = true → decode ctx (encode i) = i

theorem softReset : Statement .softReset := fun _ _ => rfl
theorem canvasInit : Statement .canvasInit := fun _ _ => rfl
theorem lzwDecode : Statement .lzwDecode := fun _ _ => rfl
theorem compose : Statement .compose := fun _ _ => rfl
theorem dispose : Statement .dispose := fun _ _ => rfl
theorem abort : Statement .abort := fun _ _ => rfl
theorem illegalOp0 : Statement .illegalOp0 := fun _ _ => rfl
theorem illegalOp7 : Statement .illegalOp7 := fun _ _ => rfl

theorem illegalOp8F (low : BitVec 3) : Statement (.illegalOp8F low) := by
  intro ctx h
  clear h
  show decodeCmd (cmdWord (1#1 ++ low : BitVec 4)) = .illegalOp8F low
  clear ctx
  revert low
  decide

theorem illegalRsvd (op : BitVec 4) (rsvd : BitVec 28) : Statement (.illegalRsvd op rsvd) := by
  intro ctx h
  have hr : rsvd ≠ 0 := by simpa [Instr.fits] using h
  show decodeCmd (rsvd ++ op : BitVec 32) = .illegalRsvd op rsvd
  unfold decodeCmd
  rw [cmdRsvd_append, cmdOp_append, if_pos hr]

theorem lzwClear (c : Code) : Statement (.lzwClear c) := by
  intro ctx h
  have hc : c.toNat = 2 ^ ctx.m := by simpa [Instr.fits] using h
  exact if_pos hc

theorem lzwEnd (c : Code) : Statement (.lzwEnd c) := by
  intro ctx h
  have hc : c.toNat = 2 ^ ctx.m + 1 := by simpa [Instr.fits] using h
  show decodeCode ctx c = .lzwEnd c
  rcases decodeCode_cases ctx c with h | h | h | h | h | h <;> first | exact h.2 | omega

theorem lzwFirst (c : Code) : Statement (.lzwFirst c) := by
  intro ctx h
  simp only [Instr.fits, Bool.and_eq_true, Bool.not_eq_true', decide_eq_true_eq] at h
  show decodeCode ctx c = .lzwFirst c
  rcases decodeCode_cases ctx c with g | g | g | g | g | g
  · omega
  · omega
  · exact g.2.2
  · rw [h.1] at g; exact absurd g.1 (by decide)
  · rw [h.1] at g; exact absurd g.1 (by decide)
  · omega

theorem lzwHit (c : Code) : Statement (.lzwHit c) := by
  intro ctx h
  simp only [Instr.fits, Bool.and_eq_true, Bool.or_eq_true, decide_eq_true_eq] at h
  show decodeCode ctx c = .lzwHit c
  rcases decodeCode_cases ctx c with g | g | g | g | g | g
  · omega
  · omega
  · rw [h.1] at g; exact absurd g.1 (by decide)
  · exact g.2.2
  · omega
  · have := (g.2.1 h.1).1; omega

theorem lzwKwkwk (c : Code) : Statement (.lzwKwkwk c) := by
  intro ctx h
  simp only [Instr.fits, Bool.and_eq_true, decide_eq_true_eq] at h
  show decodeCode ctx c = .lzwKwkwk c
  rcases decodeCode_cases ctx c with g | g | g | g | g | g
  · omega
  · omega
  · rw [h.1.1.1] at g; exact absurd g.1 (by decide)
  · omega
  · exact g.2.2.2.2
  · have := (g.2.1 h.1.1.1).2; omega

theorem lzwInvalid (c : Code) : Statement (.lzwInvalid c) := by
  intro ctx h
  simp only [Instr.fits, Bool.and_eq_true, Bool.or_eq_true, Bool.not_eq_true', decide_eq_true_eq] at h
  show decodeCode ctx c = .lzwInvalid c
  rcases decodeCode_cases ctx c with g | g | g | g | g | g
  · omega
  · omega
  · omega
  · rcases h.2 with hv | hv
    · rw [hv] at g; exact absurd g.1 (by decide)
    · omega
  · rcases h.2 with hv | hv
    · rw [hv] at g; exact absurd g.1 (by decide)
    · omega
  · exact g.2.2

end Sys2Proof.Laws.RoundTrip
end

