-- ==== Sys2Proof/Laws/Step.lean ====
section
/-! SUPPORT. Everything one step can do, said once: a property that each part of a step keeps is kept by every step. -/

namespace Sys2Proof.Machine

/-- The parts a step is made of: the Host's accesses, the requests, the resets, the Engine's steps and the LZW code
classes, each under the conditions it happens in. -/
structure KeptByParts (P : State → Prop) : Prop where
  host : ∀ s h d, P s → P { s with host := h, draws := d }
  regs : ∀ s r, P s → P { s with regs := r }
  statusWrite : ∀ s w, P s → P { s with status := statusW1C w s.status }
  dropped : ∀ s, busy s = true → P s → P { s with status := { s.status with rej := true, rejMem := true } }
  gctWrite : ∀ s i c, i < 256 → busy s = false → P s → P { s with gct := s.gct.put i c }
  lctWrite : ∀ s i c, i < 256 → busy s = false → P s → P { s with lct := s.lct.put i c }
  inWrite : ∀ s a w, busy s = false → P s → P { s with inMem := putWindowWord s.params.inMemBytes a w s.inMem }
  softReset : ∀ s, P s → P (softReset s)
  hardwareReset : ∀ s, P s → P (hardwareReset s)
  abort : ∀ s, busy s = true → P s → P { s with status := { s.status with abortReq := true } }
  reject : ∀ s op, busy s = true → P s → P (reject op s)
  illegal : ∀ s op w, busy s = false → P s → P (illegalCommand w (accept op s))
  canvasInit : ∀ s, busy s = false → P s → P (acceptCanvasInit (accept 0x2 s))
  lzwDecode : ∀ s, busy s = false → P s → P (acceptLzw (accept 0x3 s))
  compose : ∀ s, busy s = false → P s → P (acceptCompose (accept 0x4 s))
  dispose : ∀ s, busy s = false → P s → P (acceptDispose (accept 0x5 s))
  aborted : ∀ s, busy s = true → s.status.abortReq = true → P s → P (endByAbort s)
  initStep : ∀ s, s.eng = .init → s.status.abortReq = false → P s → P (initStep s)
  compVStep : ∀ s, s.eng = .compV → s.status.abortReq = false → P s → P (compVStep s)
  compSStep : ∀ s, s.eng = .compS → s.status.abortReq = false → P s → P (compSStep s)
  compWStep : ∀ s, s.eng = .compW → s.status.abortReq = false → P s → P (compWStep s)
  dispStep : ∀ s, s.eng = .disp → s.status.abortReq = false → P s → P (dispStep s)
  exhausted : ∀ s, s.eng = .lzw → s.status.abortReq = false → bitsLeft s < s.lzw.width.toNat → P s → P (raiseExhausted s)
  code : ∀ s t, s.eng = .lzw → s.status.abortReq = false → s.lzw.width.toNat ≤ bitsLeft s → P s →
    exec (decodeCode (codeCtx s) (codeAtCursor s)) (advanceCursor s) = .next t → P t

variable {P : State → Prop}

@[simp] theorem codeCtx_advanceCursor (s : State) : codeCtx (advanceCursor s) = codeCtx s := rfl

theorem busy_eq_false_iff (s : State) : busy s = false ↔ s.eng = .idle := by simp [busy]

theorem request_keeps (k : KeptByParts P) {s : State} {op : BitVec 4} {f : State → State}
    (hf : busy s = false → P s → P (f (accept op s))) (h : P s) : P (request op f s) := by
  unfold request
  split
  · rename_i hb; exact k.reject s op hb h
  · rename_i hb; exact hf (by simpa using hb) h

theorem exec_cmd_keeps (k : KeptByParts P) {s t : State} (w : Word) (h : P s)
    (hx : exec (decodeCmd w) s = .next t) : P t := by
  have illegal : ∀ op w, P (request op (illegalCommand w) s) :=
    fun op w => request_keeps k (fun hb hp => k.illegal s op w hb hp) h
  unfold decodeCmd at hx
  split at hx
  · cases hx; exact illegal _ _
  · split at hx <;> cases hx
    · exact illegal _ _
    · exact k.softReset s h
    · exact request_keeps k (k.canvasInit s) h
    · exact request_keeps k (k.lzwDecode s) h
    · exact request_keeps k (k.compose s) h
    · exact request_keeps k (k.dispose s) h
    · by_cases hb : busy s = true
      · rw [if_pos hb]; exact k.abort s hb h
      · rw [if_neg hb]; exact h
    · exact illegal _ _
    · exact illegal _ _

theorem engineStep_keeps (k : KeptByParts P) {s t : State} (h : P s) (hx : engineStep s = .next t) : P t := by
  unfold engineStep at hx
  split at hx
  · rename_i hc
    rw [Bool.and_eq_true] at hc
    cases hx; exact k.aborted s hc.1 hc.2 h
  · rename_i hc
    have ha : s.eng ≠ .idle → s.status.abortReq = false := by
      intro he; simpa [busy, he] using hc
    split at hx
    · cases hx; exact h
    · rename_i he; cases hx; exact k.initStep s he (ha (by simp [he])) h
    · rename_i he
      unfold lzwStep nextCode at hx
      by_cases hb : bitsLeft s < s.lzw.width.toNat
      · rw [if_pos hb] at hx; cases hx; exact k.exhausted s he (ha (by simp [he])) hb h
      · rw [if_neg hb] at hx
        exact k.code s t he (ha (by simp [he])) (by omega) h hx
    · rename_i he; cases hx; exact k.compVStep s he (ha (by simp [he])) h
    · rename_i he; cases hx; exact k.compSStep s he (ha (by simp [he])) h
    · rename_i he; cases hx; exact k.compWStep s he (ha (by simp [he])) h
    · rename_i he; cases hx; exact k.dispStep s he (ha (by simp [he])) h

theorem respond_keeps (k : KeptByParts P) {s : State} (w : Word) (h : P s) : P (respond w s) :=
  k.host s _ _ h

theorem respondFresh_keeps (k : KeptByParts P) {s : State} (f : Word → Word) (h : P s) : P (respondFresh f s) :=
  k.host s _ _ h

theorem readPlace_keeps (k : KeptByParts P) {s : State} (place : Place) (h : P s) : P (readPlace place s) := by
  obtain ⟨w, hw⟩ := readPlace_eq place s
  rw [hw]
  exact k.host s _ _ h

theorem readOffset_keeps (k : KeptByParts P) {s t : State} (off : Nat) (h : P s)
    (hx : readOffset off s = .next t) : P t := by
  unfold readOffset at hx
  split at hx
  · cases hx
  · cases hx; exact readPlace_keeps k _ h

theorem windowWrite_keeps (k : KeptByParts P) {s : State} {f : State → State}
    (hf : busy s = false → P s → P (f s)) (h : P s) : P (windowWrite f s) := by
  unfold windowWrite
  split
  · rename_i hb; exact k.dropped s hb h
  · rename_i hb; exact hf (by simpa using hb) h

theorem registerWrite_keeps (k : KeptByParts P) {s t : State} (off : Nat) (w : Word) (h : P s)
    (hx : registerWrite off w s = .next t) : P t := by
  unfold registerWrite at hx
  split at hx
  · exact exec_cmd_keeps k w h hx
  · split at hx
    · cases hx; exact k.statusWrite s w h
    · cases hx; exact k.regs s _ h

theorem writeOffset_keeps (k : KeptByParts P) {s t : State} (off : Nat) (w : Word) (h : P s)
    (hx : writeOffset off w s = .next t) : P t := by
  unfold writeOffset at hx
  split at hx
  · cases hx
  · rename_i place hp
    rcases locate_ok_cases hp with ⟨rfl, _⟩ | ⟨rfl, _⟩ | ⟨rfl, _⟩ | ⟨rfl, _⟩ | ⟨rfl, _⟩ | ⟨rfl, _⟩
    · exact registerWrite_keeps k _ w h hx
    · cases hx; exact windowWrite_keeps k (fun hb hp => k.gctWrite s _ _ (by omega) hb hp) h
    · cases hx; exact windowWrite_keeps k (fun hb hp => k.lctWrite s _ _ (by omega) hb hp) h
    · cases hx; exact windowWrite_keeps k (fun hb hp => k.inWrite s _ _ hb hp) h
    · cases hx
    · cases hx

theorem hostRead_keeps (k : KeptByParts P) {s t : State} (addr bytes : Nat) (h : P s)
    (hx : hostRead addr bytes s = .next t) : P t := by
  unfold hostRead at hx
  split at hx
  · cases hx
  · exact readOffset_keeps k _ h hx

theorem hostWrite_keeps (k : KeptByParts P) {s t : State} (addr bytes : Nat) (enables : BitVec 4) (w : Word) (h : P s)
    (hx : hostWrite addr bytes enables w s = .next t) : P t := by
  unfold hostWrite at hx
  split at hx
  · cases hx
  · split at hx
    · exact writeOffset_keeps k _ w h hx
    · cases hx

theorem pollWait_keeps (k : KeptByParts P) {s : State} (h : P s) : P (pollWait s) := by
  unfold pollWait
  dsimp only
  split
  · exact k.host s _ _ h
  · exact respond_keeps k _ h

theorem checkError_keeps (k : KeptByParts P) {s : State} (h : P s) : P (checkError s) := by
  unfold checkError
  dsimp only
  split
  · exact k.host s _ _ h
  · exact respond_keeps k _ h

/-- A property that every part of a step keeps is kept by every step. -/
theorem step_keeps (k : KeptByParts P) {s t : State} (h : P s) (hx : step s = .next t) : P t := by
  unfold step at hx
  split at hx
  · exact engineStep_keeps k h hx
  · have hd : P (dropEvent s) := k.host s _ _ h
    rename_i e _ _
    cases e with
    | engineStep => exact engineStep_keeps k hd hx
    | read addr bytes => exact hostRead_keeps k addr bytes hd hx
    | write addr bytes enables data => exact hostWrite_keeps k addr bytes enables data hd hx
    | wait => cases hx; exact pollWait_keeps k hd
    | stopOnError => cases hx; exact checkError_keeps k hd
    | hardwareReset => cases hx; exact k.hardwareReset _ hd

end Sys2Proof.Machine
end

