-- ==== Sys2Proof/Tests/Slice0.lean ====
section
/-! SUPPORT. Tests: ill-formed terms refused, words and codes written out from the spec's encodings, one step of each
instruction, and for every statement with hypotheses a state and operands that meet them all. -/

namespace Sys2Proof.Tests

open Sys2Proof.Machine Sys2Proof.Claims

/-! Well-formedness: each check refuses a term. -/

theorem test_wf_rsvd_zero : Instr.wf (.illegalRsvd 0x3 0) = false := by decide

theorem test_wf_clear : Instr.wf (.lzwClear 3) = false ∧ Instr.wf (.lzwClear 512) = false := by decide

theorem test_wf_end : Instr.wf (.lzwEnd 4) = false ∧ Instr.wf (.lzwEnd 513) = false := by decide

theorem test_wf_first : Instr.wf (.lzwFirst 256) = false := by decide

theorem test_wf_kwkwk : Instr.wf (.lzwKwkwk 5) = false := by decide

theorem test_wf_invalid : Instr.wf (.lzwInvalid 5) = false := by decide

theorem test_legal_min_code : legalMinCode 1 = false ∧ legalMinCode 9 = false := by decide

theorem test_ctx_legal : CodeCtx.legal { m := 9, nextFree := 600, prevValid := true } = false
    ∧ CodeCtx.legal { m := 2, nextFree := 5, prevValid := true } = false
    ∧ CodeCtx.legal { m := 2, nextFree := 4097, prevValid := true } = false
    ∧ CodeCtx.legal { m := 2, nextFree := 7, prevValid := false } = false := by decide

/-- M = 2, NEXT_FREE = 8, a previous code. -/
def ctx8 : CodeCtx where
  m := 2
  nextFree := 8
  prevValid := true

/-- M = 2 right after the table's initialisation. -/
def ctx6 : CodeCtx where
  m := 2
  nextFree := 6
  prevValid := false

theorem test_fits_refuses : Instr.fits ctx8 (.illegalRsvd 0 0) = false ∧ Instr.fits ctx8 (.lzwClear 5) = false
    ∧ Instr.fits ctx8 (.lzwEnd 4) = false ∧ Instr.fits ctx8 (.lzwFirst 3) = false
    ∧ Instr.fits ctx6 (.lzwFirst 4) = false ∧ Instr.fits ctx6 (.lzwHit 3) = false
    ∧ Instr.fits ctx8 (.lzwHit 8) = false ∧ Instr.fits ctx8 (.lzwKwkwk 7) = false
    ∧ Instr.fits ctx6 (.lzwKwkwk 6) = false ∧ Instr.fits ctx8 (.lzwInvalid 8) = false := by decide

theorem test_fits_full_table :
    Instr.fits { m := 8, nextFree := 4096, prevValid := true } (.lzwKwkwk 4095) = false := by decide

/-! Decoding: words from R92 and R93, codes from R97. -/

theorem test_decode_softReset : decodeTableWord 32 0x00000001 = some .softReset := by decide

theorem test_decode_canvasInit : decodeTableWord 32 0x00000002 = some .canvasInit := by decide

theorem test_decode_lzwDecode : decodeTableWord 32 0x00000003 = some .lzwDecode := by decide

theorem test_decode_compose : decodeTableWord 32 0x00000004 = some .compose := by decide

theorem test_decode_dispose : decodeTableWord 32 0x00000005 = some .dispose := by decide

theorem test_decode_abort : decodeTableWord 32 0x00000006 = some .abort := by decide

theorem test_decode_illegalOp0 : decodeTableWord 32 0x00000000 = some .illegalOp0 := by decide

theorem test_decode_illegalOp7 : decodeTableWord 32 0x00000007 = some .illegalOp7 := by decide

theorem test_decode_illegalOp8F : decodeTableWord 32 0x00000008 = some (.illegalOp8F 0)
    ∧ decodeTableWord 32 0x0000000D = some (.illegalOp8F 5) := by decide

theorem test_decode_illegalRsvd : decodeTableWord 32 0x00000013 = some (.illegalRsvd 0x3 0x0000001)
    ∧ decodeTableWord 32 0xF0000006 = some (.illegalRsvd 0x6 0xF000000) := by decide

theorem test_decode_lzwClear : decodeCode ctx8 4 = .lzwClear 4 := by decide

theorem test_decode_lzwEnd : decodeCode ctx8 5 = .lzwEnd 5 := by decide

theorem test_decode_lzwFirst : decodeCode ctx6 3 = .lzwFirst 3 := by decide

theorem test_decode_lzwHit : decodeCode ctx8 3 = .lzwHit 3 ∧ decodeCode ctx8 7 = .lzwHit 7 := by decide

theorem test_decode_lzwKwkwk : decodeCode ctx8 8 = .lzwKwkwk 8 := by decide

theorem test_decode_lzwInvalid : decodeCode ctx8 9 = .lzwInvalid 9 ∧ decodeCode ctx6 6 = .lzwInvalid 6 := by decide

theorem test_decode_rejects : decodeTableWord 32 0x100000000 = none ∧ decodeTableWord 16 0x1000 = none := by decide

/-- BR-1 of spec/95: the bytes 8C 2D hold the codes 4, 1, 6, 6 of 3 bits, then 2 of 4 bits (LZW-S1). -/
theorem test_pack_codes : packCodes [(3, 4), (3, 1), (3, 6), (3, 6), (4, 2)] = [0x8C, 0x2D] := by decide

/-! States. -/

/-- The state an outcome leaves, or the one given where it stops. -/
def stateOf (s : State) : Host.Outcome State Fault Refusal → State
  | .next t => t
  | .fault _ => s
  | .refused _ => s

/-- `steps n s`: the state after n steps. -/
def steps (n : Nat) (s : State) : State := stateOf s (core.run n s)

/-- Bytes of a memory from address 0 on. -/
def bytesFrom0 (bytes : List Byte) : Store Byte := { draw := 0, cells := (List.range bytes.length).zip bytes }

/-- Colours of a table from entry 0 on. -/
def coloursFrom0 (colours : List Colour) : Store Colour := { draw := 0, cells := (List.range colours.length).zip colours }

/-- The state right after an LZW_DECODE of a stream at IN_MEM 0 was accepted from reset (R130), M = 2. -/
def decoding (stream : List Byte) (w h : BitVec 16) : State :=
  let s := { State.reset with
    inMem := bytesFrom0 stream
    indexLatch := { idxW := w, idxH := h, lm := 2, lbase := 0, llen := BitVec.ofNat 32 stream.length }
    status := { Status.reset with lastOp := 0x3 } }
  { initTable s with eng := .lzw }

/-- The Engine after the codes 4 (CLEAR) and 1 (FIRST) of the stream 8C 2D, so that code 6 is next (LZW-S1). -/
def afterFirst : State := steps 2 (decoding [0x8C, 0x2D] 4 1)

/-- One step further: KWKWK built slot 6, code 6 is next again. -/
def afterKwkwk : State := steps 3 (decoding [0x8C, 0x2D] 4 1)

/-- A 2 × 1 canvas of colour 0xFF0000 and a frame of two indices at (left, top), with a global table of two entries. -/
def composing (left top : Nat) (flags : BitVec 9) : State :=
  { State.reset with
    regs := { ConfigRegs.reset with
      gctCfg := 1, framePos := BitVec.ofNat 32 (65536 * top + left), frameFlags := flags, transpIndex := 1 }
    canvasLatch := { cw := 2, ch := 1, bgRgb := 0xFF0000 }
    indexLatch := { idxW := 2, idxH := 1, lm := 2, lbase := 0, llen := 0 }
    gct := coloursFrom0 [0x000000, 0x00FF00]
    lct := coloursFrom0 [0x111111, 0x222222]
    canvas := coloursFrom0 [0xFF0000, 0xFF0000]
    snap := coloursFrom0 [0x123456, 0x654321]
    idxMem := bytesFrom0 [0, 1]
    status := { Status.reset with canvasValid := true, idxValid := true } }

/-- The configuration of a 1 × 1 canvas whose background is entry 0 of a two-entry global table. -/
def configured : State :=
  { State.reset with
    regs := { ConfigRegs.reset with canvasSize := 0x00010001, gctCfg := 1, frameSize := 0x00010001, lzwMin := 2, inLen := 1 }
    gct := coloursFrom0 [0x00FF00] }

/-- STATUS as the Host reads it. -/
def statusOf (s : State) : Word := regRead 0x008 s

/-! One step of each instruction. -/

theorem test_softReset_keeps_tables :
    gctEntry (stateOf configured (exec .softReset configured)) 0 = 0x00FF00
    ∧ regRead 0x010 (stateOf configured (exec .softReset configured)) = 0 := by decide

theorem test_softReset_while_busy : (stateOf afterFirst (exec .softReset afterFirst)).eng = .idle
    ∧ statusOf (stateOf afterFirst (exec .softReset afterFirst)) = 0x00000000 := by decide

/-- CI-1: STATUS 0x00000021 after the write. -/
theorem test_canvasInit_accepted : statusOf (stateOf configured (exec .canvasInit configured)) = 0x00000021
    ∧ regRead 0x050 (stateOf configured (exec .canvasInit configured)) = 0x0000FF00 := by decide

/-- CI-4: a zero width ends with INVALID_RESOLUTION(CANVAS_SIZE, 0), before the background check. -/
theorem test_canvasInit_size :
    let s := { State.reset with regs := { ConfigRegs.reset with canvasSize := 0x00040000 } }
    statusOf (stateOf s (exec .canvasInit s)) = 0x00000524
    ∧ (stateOf s (exec .canvasInit s)).errInfo0 = 0x00040000 := by decide

/-- LZW-A5: STATUS 0x00000031 after the write, LZW_STATE with WIDTH 3 and NEXT_FREE 6. -/
theorem test_lzwDecode_accepted : statusOf (stateOf configured (exec .lzwDecode configured)) = 0x00000031
    ∧ regRead 0x040 (stateOf configured (exec .lzwDecode configured)) = 0x00000063 := by decide

/-- LZW-A4: INPUT_RANGE(0xFFFFFF, 2). -/
theorem test_lzwDecode_range :
    let s := { State.reset with
      regs := { ConfigRegs.reset with frameSize := 0x00010001, lzwMin := 2, inBase := 0xFFFFFF, inLen := 2 } }
    statusOf (stateOf s (exec .lzwDecode s)) = 0x00000734
    ∧ (stateOf s (exec .lzwDecode s)).errInfo0 = 0xFFFFFF ∧ (stateOf s (exec .lzwDecode s)).errInfo1 = 2 := by decide

/-- R175, R176: the global table of two entries is active; STATUS 0x00030041. -/
theorem test_compose_accepted : statusOf (stateOf (composing 0 0 0) (exec .compose (composing 0 0 0))) = 0x00030041
    ∧ regRead 0x060 (stateOf (composing 0 0 0) (exec .compose (composing 0 0 0))) = 0x00020104 := by decide

/-- R241: SEQUENCE_ERROR(STATUS[18:16], OP) from reset. -/
theorem test_compose_sequence : statusOf (stateOf State.reset (exec .compose State.reset)) = 0x00000944
    ∧ (stateOf State.reset (exec .compose State.reset)).errInfo1 = 0x4 := by decide

/-- A pending frame of disposal 2 whose region is cell (1, 0) of the 2 × 1 canvas. -/
def pending (disp : BitVec 3) : State :=
  { composing 0 0 0 with
    status := { Status.reset with canvasValid := true, idxValid := true, framePending := true }
    frameLatch := { FrameLatch.reset with left := 1, w := 2, h := 1, disp := disp } }

/-- R192: disposal 1 ends at acceptance; STATUS 0x00030052. -/
theorem test_dispose_nothing : statusOf (stateOf (pending 1) (exec .dispose (pending 1))) = 0x00030052 := by decide

/-- R193, R194: disposal 3 restores the one cell of the clipped region from SNAP in one Engine step. -/
theorem test_dispose_restores :
    let s := steps 1 (stateOf (pending 3) (exec .dispose (pending 3)))
    canvasCell s 1 = 0x654321 ∧ canvasCell s 0 = 0xFF0000 ∧ statusOf s = 0x00030052 := by decide

/-- AB: ABORT while LZW runs sets ABORT_REQ (STATUS bit 19); the next step ends with ABORTED. -/
theorem test_abort_busy : statusOf (stateOf afterFirst (exec .abort afterFirst)) = 0x00080031
    ∧ statusOf (steps 1 (stateOf afterFirst (exec .abort afterFirst))) = 0x00000B34 := by decide

/-- R24, R38: ID, and two detail words read at 0x038 and 0x03C. -/
theorem test_read_error_info :
    let s := { State.reset with errInfo0 := 0x00FFFFFF, errInfo1 := 0x00000002 }
    regRead 0x038 s = 0x00FFFFFF ∧ regRead 0x03C s = 0x00000002 ∧ regRead 0x000 s = 0x4C5A5731 := by decide

theorem test_abort_idle : stateOf configured (exec .abort configured) = configured := by decide

/-- R225: ILLEGAL_COMMAND with the word. -/
theorem test_illegalOp0 : statusOf (stateOf State.reset (exec .illegalOp0 State.reset)) = 0x00000A04
    ∧ (stateOf State.reset (exec .illegalOp0 State.reset)).errInfo0 = 0 := by decide

theorem test_illegalOp7 : statusOf (stateOf State.reset (exec .illegalOp7 State.reset)) = 0x00000A74
    ∧ (stateOf State.reset (exec .illegalOp7 State.reset)).errInfo0 = 7 := by decide

theorem test_illegalOp8F : statusOf (stateOf State.reset (exec (.illegalOp8F 5) State.reset)) = 0x00000AD4
    ∧ (stateOf State.reset (exec (.illegalOp8F 5) State.reset)).errInfo0 = 0xD := by decide

/-- R221: rejected while busy: REJ (bit 3) and REJ_OP (bits 23:20). -/
theorem test_illegalRsvd_busy :
    statusOf (stateOf afterFirst (exec (.illegalRsvd 0x6 0x0000001) afterFirst)) = 0x00600039 := by decide

theorem test_illegalRsvd_idle :
    (stateOf State.reset (exec (.illegalRsvd 0x6 0x0000001) State.reset)).errInfo0 = 0x00000016 := by decide

/-- LZW-S1, step 1: CLEAR. -/
theorem test_lzwClear : regRead 0x040 (steps 1 (decoding [0x8C, 0x2D] 4 1)) = 0x00000063
    ∧ (steps 1 (decoding [0x8C, 0x2D] 4 1)).bitPos = 3 := by decide

/-- R134: the code 5 before the image is complete is SHORT_PIXEL_DATA(PIX_COUNT, CODE_START). -/
theorem test_lzwEnd : statusOf (steps 1 (decoding [0x05] 1 1)) = 0x00000334
    ∧ (steps 1 (decoding [0x05] 1 1)).errInfo0 = 0 ∧ (steps 1 (decoding [0x05] 1 1)).errInfo1 = 0 := by decide

/-- LZW-S1, step 2: FIRST emits 1. -/
theorem test_lzwFirst : afterFirst.pixCount = 1 ∧ idxByte afterFirst 0 = 1
    ∧ regRead 0x040 afterFirst = 0x20020063 := by decide

/-- LZW-S1, step 4: HIT of code 6 emits 1 1; slot 7 is built and WIDTH becomes 4. Here N = 4, so one index is dropped
and the decode is complete. -/
theorem test_lzwHit :
    let s := steps 4 (decoding [0x8C, 0x2D] 4 1)
    statusOf s = 0x00020032 ∧ regRead 0x040 s = 0x200C0084 ∧ s.pixCount = 4 := by decide

/-- LZW-S1, step 3: KWKWK of code 6 emits 1 1 and builds slot 6. -/
theorem test_lzwKwkwk : afterKwkwk.pixCount = 3 ∧ idxByte afterKwkwk 2 = 1
    ∧ slotAt afterKwkwk 6 = { prefixCode := some 1, suffixIdx := 1 }
    ∧ regRead 0x040 afterKwkwk = 0x200C0073 := by decide

/-- R140: code 6 with no previous code is INVALID_LZW_CODE(6, 0). -/
theorem test_lzwInvalid : statusOf (steps 1 (decoding [0x06] 1 1)) = 0x00000234
    ∧ (steps 1 (decoding [0x06] 1 1)).errInfo0 = 6 := by decide

/-! The step runs what withFetchWord presents. -/

theorem test_fetch_command :
    statusOf (stateOf State.reset (step (State.reset.withFetchWord 32 0x00000013))) = 0x00000A34 := by decide

theorem test_fetch_code : (stateOf State.reset (step (State.reset.withFetchWord 16 0x0041))).pixCount = 1
    ∧ idxByte (stateOf State.reset (step (State.reset.withFetchWord 16 0x0041))) 0 = 0x41 := by decide

/-! Witnesses: for each statement with hypotheses, a state and operands that meet them, at the edges of each clause. -/

theorem witness_DecodeOfEncode :
    ∀ p ∈ [(Instr.softReset, ctx6), (.canvasInit, ctx6), (.lzwDecode, ctx6), (.compose, ctx6), (.dispose, ctx6),
      (.abort, ctx6), (.illegalOp0, ctx6), (.illegalOp7, ctx6), (.illegalOp8F 7, ctx6), (.illegalRsvd 1 0x8000000, ctx6),
      (.lzwClear 4, ctx6), (.lzwEnd 5, ctx8), (.lzwFirst 0, ctx6), (.lzwHit 7, ctx8), (.lzwKwkwk 8, ctx8),
      (.lzwInvalid 6, ctx6), (.lzwInvalid 4095, ctx8)],
      p.1.wf = true ∧ p.2.legal = true ∧ p.1.fits p.2 = true := by decide

/-- M = 8 with a full table. -/
def ctxFull : CodeCtx where
  m := 8
  nextFree := 4096
  prevValid := true

theorem witness_EncodeOfDecode : ctx6.legal = true ∧ ctxFull.legal = true
    ∧ (Instr.illegalRsvd 0x6 0xFFFFFFF).wf = true ∧ encode (.illegalRsvd 0x6 0xFFFFFFF) = .cmd 0xFFFFFFF6
    ∧ encode (.lzwHit 4095) = .code 4095 ∧ (Instr.lzwHit 4095).fits ctxFull = true := by decide

theorem witness_CodeClassTable : ctx6.legal = true ∧ ctx8.legal = true ∧ ctxFull.legal = true
    ∧ decodeCode ctx8 4 = .lzwClear 4 ∧ decodeCode ctx8 5 = .lzwEnd 5 ∧ decodeCode ctx6 3 = .lzwFirst 3
    ∧ decodeCode ctx8 3 = .lzwHit 3 ∧ decodeCode ctx8 6 = .lzwHit 6 ∧ decodeCode ctx8 7 = .lzwHit 7
    ∧ decodeCode ctx8 8 = .lzwKwkwk 8 ∧ decodeCode ctx8 9 = .lzwInvalid 9 ∧ decodeCode ctx6 6 = .lzwInvalid 6
    ∧ decodeCode ctxFull 4095 = .lzwHit 4095 := by decide

/-- BR-2 and BR-3 of spec/95: 12 bits at bit 4, which end with the stream. -/
def twelveBits : State :=
  { State.reset with
    inMem := bytesFrom0 [0x00, 0xAB]
    bitPos := 4
    lzw := { LzwRegs.reset with width := 12 }
    indexLatch := { IndexLatch.reset with llen := 2 } }

theorem witness_NextCodeBits : twelveBits.lzw.width.toNat ≤ 12
    ∧ twelveBits.bitPos.toNat + twelveBits.lzw.width.toNat ≤ 8 * twelveBits.indexLatch.llen.toNat
    ∧ 8 * twelveBits.indexLatch.llen.toNat < 2 ^ 32
    ∧ (nextCode twelveBits).map (fun p => (p.1, p.2.bitPos)) = some (0xAB0, 16) := by decide

/-- The stream of the codes 4, 1 (3 bits), 6 (12 bits), with the cursor at the last. -/
def packedState : State :=
  { State.reset with
    inMem := bytesFrom0 (packCodes [(3, 4), (3, 1), (12, 6)])
    bitPos := 6
    lzw := { LzwRegs.reset with width := 12 }
    indexLatch := { IndexLatch.reset with llen := 3 } }

theorem witness_PackedCodesReadBack :
    (∀ p ∈ [(3, 4), (3, 1)] ++ ((12, 6) : Nat × Code) :: [], 3 ≤ p.1 ∧ p.1 ≤ 12 ∧ p.2.toNat < 2 ^ p.1)
    ∧ packedState.indexLatch.llen.toNat = (packCodes ([(3, 4), (3, 1)] ++ (12, 6) :: [])).length
    ∧ 8 * packedState.indexLatch.llen.toNat < 2 ^ 32
    ∧ (∀ k, k < packedState.indexLatch.llen.toNat →
        inByte packedState (packedState.indexLatch.lbase.toNat + k)
          = (packCodes ([(3, 4), (3, 1)] ++ (12, 6) :: [])).getD k 0)
    ∧ packedState.bitPos.toNat = (([(3, 4), (3, 1)] : List (Nat × Code)).map Prod.fst).sum
    ∧ packedState.lzw.width.toNat = 12 := by decide

/-- A running decode in one of the tests' states satisfies the invariant. -/
theorem running_start : LzwRunning (decoding [0x8C, 0x2D] 4 1) where
  params_legal := by decide
  min_code := by decide
  stream_inside := by decide
  cursor_inside := by decide
  output_fits := by decide
  output_open := by decide
  free_low := by decide
  free_high := by decide
  free_first := by decide
  width_scheduled := by decide
  prev_initialised := fun h => absurd h (by decide)
  roots := by decide
  built := by
    intro k h1 h2
    have h1' : 6 ≤ k := h1
    have h2' : k < 6 := h2
    omega
  indices_small := by decide

/-- After KWKWK slot 6 is built with PREFIX 1, and code 6 is the previous code. -/
theorem running_built : LzwRunning afterKwkwk where
  params_legal := by decide
  min_code := by decide
  stream_inside := by decide
  cursor_inside := by decide
  output_fits := by decide
  output_open := by decide
  free_low := by decide
  free_high := by decide
  free_first := by decide
  width_scheduled := by decide
  prev_initialised := fun _ => .inr ⟨by decide, by decide⟩
  roots := by decide
  built := by
    intro k h1 h2
    have h1' : 6 ≤ k := h1
    have h2' : k < 7 := h2
    obtain rfl : k = 6 := by omega
    exact ⟨1, by decide, by decide, by decide, by decide, by decide⟩
  indices_small := by decide

/-- After FIRST the previous code is 1 and NEXT_FREE is 6. -/
theorem running_first : LzwRunning afterFirst where
  params_legal := by decide
  min_code := by decide
  stream_inside := by decide
  cursor_inside := by decide
  output_fits := by decide
  output_open := by decide
  free_low := by decide
  free_high := by decide
  free_first := by decide
  width_scheduled := by decide
  prev_initialised := fun _ => .inl (by decide)
  roots := by decide
  built := by
    intro k h1 h2
    have h1' : 6 ≤ k := h1
    have h2' : k < 6 := h2
    omega
  indices_small := by decide

/-- BR-4 of spec/95: two bits remain, WIDTH is 3. -/
def exhausted : State := { decoding [0x00] 1 1 with bitPos := 6 }

theorem running_exhausted : LzwRunning exhausted where
  params_legal := by decide
  min_code := by decide
  stream_inside := by decide
  cursor_inside := by decide
  output_fits := by decide
  output_open := by decide
  free_low := by decide
  free_high := by decide
  free_first := by decide
  width_scheduled := by decide
  prev_initialised := fun h => absurd h (by decide)
  roots := by decide
  built := by
    intro k h1 h2
    have h1' : 6 ≤ k := h1
    have h2' : k < 6 := h2
    omega
  indices_small := by decide

theorem witness_ExhaustedStream : exhausted.eng = .lzw ∧ exhausted.status.abortReq = false ∧ LzwInv exhausted
    ∧ 8 * exhausted.indexLatch.llen.toNat - exhausted.bitPos.toNat < exhausted.lzw.width.toNat :=
  ⟨by decide, by decide, ⟨by decide, fun _ => running_exhausted⟩, by decide⟩

theorem witness_StreamOutsideIrrelevant : afterFirst.eng = .lzw
    ∧ ∀ a, afterFirst.indexLatch.lbase.toNat ≤ a →
      a < afterFirst.indexLatch.lbase.toNat + afterFirst.indexLatch.llen.toNat →
      (bytesFrom0 [0x8C, 0x2D, 0x77]).get (Config.unwrittenByte .inMem) a = inByte afterFirst a := by
  refine ⟨by decide, ?_⟩
  intro a _ h
  have h' : a < 2 := h
  obtain rfl | rfl : a = 0 ∨ a = 1 := by omega
  · decide
  · decide

theorem witness_RegisterWrites :
    (∀ off ∈ [0x000, 0x00C, 0x010, 0x014, 0x018, 0x01C, 0x020, 0x024, 0x028, 0x02C, 0x030, 0x034, 0x0FC], off < 0x100 ∧ off % 4 = 0 ∧ off ≠ 0x004 ∧ off ≠ 0x008)
    ∧ storedBits 0x00C = some 0x7 ∧ storedBits 0x0FC = none := by decide

/-- IN_MEM of 6 bytes, so that its second word is cut off. -/
def smallInput : State := { State.reset with params := { Params.defaults with inMemBytes := 6 } }

theorem witness_InputMemoryWords : smallInput.params.legal = true ∧ busy smallInput = false
    ∧ 4 * 1 < smallInput.params.inMemBytes ∧ 4 * 0 + 4 ≤ smallInput.params.inMemBytes
    ∧ ¬ 4 * 1 + 4 ≤ smallInput.params.inMemBytes := by decide

theorem witness_ReadOnlyRegisters :
    (∀ off ∈ [0x068, 0x0FC], 0x068 ≤ off ∧ off < 0x100 ∧ off % 4 = 0)
    ∧ State.reset.frameLatch.tsel = .noTable
    ∧ (stateOf (composing 0 0 0) (exec .compose (composing 0 0 0))).frameLatch.tsel = .globalTable
    ∧ (stateOf (composing 0 0 2) (exec .compose (composing 0 0 2))).frameLatch.tsel = .localTable := by decide

theorem witness_ColourTableWords : busy (composing 0 0 0) = false ∧ 0 < 256 ∧ 255 < 256
    ∧ gctEntry (composing 0 0 0) 1 = 0x00FF00 := by decide

theorem witness_ResultWindows : State.reset.params.legal = true ∧ State.reset.eng ≠ .lzw
    ∧ 4 * 24999999 < State.reset.params.idxMemBytes ∧ 99999999 < State.reset.params.canvasPixels
    ∧ (composing 0 0 0).eng = .idle ∧ 1 < canvasArea (composing 0 0 0) := by decide

theorem witness_ReadsAnswerOrFault :
    (∀ off ∈ [0x0FC, 0x1000, 0x17FC, 0x01000000, 0x01FFFFFC, 0x02000000, 0x10000000],
      wordAccess Params.defaults off 4 ∧ readable Params.defaults off)
    ∧ ¬ wordAccess Params.defaults 0x0FE 4 ∧ ¬ wordAccess Params.defaults 0x0FC 2
    ∧ ∀ off ∈ [0x100, 0xFFC, 0x1800, 0x30000000], ¬ readable Params.defaults off := by
  unfold wordAccess readable
  decide

theorem witness_WritesAnswerOrFault :
    (∀ off ∈ [0x0FC, 0x1000, 0x17FC, 0x01000000, 0x01FFFFFC],
      wordAccess Params.defaults off 4 ∧ writable Params.defaults off)
    ∧ ∀ off ∈ [0x100, 0xFFC, 0x1800, 0x02000000, 0x10000000, 0x30000000], ¬ writable Params.defaults off := by
  unfold wordAccess writable
  decide

theorem witness_BusyWindowWrites : busy afterFirst = true
    ∧ ∀ off ∈ [0x1000, 0x17FC, 0x01000000], writable afterFirst.params off ∧ 0x100 ≤ off ∧ off % 4 = 0 := by
  unfold writable
  decide

theorem witness_BusyRejection : busy afterFirst = true ∧ (0x00000003 : Word) ≠ 0x00000001
    ∧ (0x00000003 : Word) ≠ 0x00000006 := by decide

theorem witness_AbortRequest : busy afterFirst = true ∧ busy State.reset = false := by decide

theorem witness_EndByAbort : ∀ e ∈ [EngState.init, .lzw, .compV, .compS, .compW, .disp],
    busy { composing 0 0 0 with eng := e } = true := by decide

theorem witness_IllegalCommands :
    ∀ p ∈ [(Instr.illegalOp0, (0x00000000 : Word)), (.illegalOp7, 0x00000007), (.illegalOp8F 7, 0x0000000F),
      (.illegalRsvd 0x1 0x0000001, 0x00000011)],
      isIllegal p.1 = true ∧ encode p.1 = .cmd p.2 ∧ busy State.reset = false := by decide

theorem witness_AcceptanceOutcome : busy configured = false ∧ (0x00000002 : Word) ≠ 0x00000001
    ∧ (0x00000002 : Word) ≠ 0x00000006 := by decide

theorem witness_CanvasInitAcceptance : busy configured = false
    ∧ legalSize configured.params.maxDim configured.params.canvasPixels 1 1
    ∧ ¬ legalSize configured.params.maxDim configured.params.canvasPixels 0 1
    ∧ ¬ legalSize configured.params.maxDim configured.params.canvasPixels 1 10001
    ∧ configured.regs.gctCfg.getLsbD 0 = true
    ∧ configured.regs.bgIndex.toNat < 2 ^ (configured.regs.gctCfg.toNat / 2 + 1) := by
  unfold legalSize
  decide

theorem witness_LzwDecodeAcceptance : busy configured = false
    ∧ legalSize configured.params.maxDim configured.params.idxMemBytes 1 1
    ∧ ¬ legalSize configured.params.maxDim configured.params.idxMemBytes 1 0
    ∧ (2 ≤ configured.regs.lzwMin.toNat ∧ configured.regs.lzwMin.toNat ≤ 8)
    ∧ configured.regs.inBase.toNat + configured.regs.inLen.toNat ≤ configured.params.inMemBytes := by
  unfold legalSize
  decide

theorem witness_ComposeAcceptance : busy (composing 0 0 0x1FF) = false ∧ busy State.reset = false
    ∧ (composing 0 0 0x1FF).status.canvasValid = true ∧ (composing 0 0 0x1FF).status.idxValid = true
    ∧ (composing 0 0 0x1FF).status.framePending = false ∧ 3 < (composing 0 0 0x1FF).regs.frameFlags.toNat / 64
    ∧ (composing 0 0 0x0C2).regs.frameFlags.toNat / 64 ≤ 3 ∧ (composing 0 0 0x0C2).regs.frameFlags.getLsbD 1 = true
    ∧ (composing 0 0 0).regs.frameFlags.getLsbD 1 = false ∧ (composing 0 0 0).regs.gctCfg.getLsbD 0 = true := by decide

theorem witness_DisposeAcceptance : busy (pending 2) = false ∧ (pending 2).status.framePending = true
    ∧ (pending 2).status.canvasValid = true ∧ (pending 1).frameLatch.disp.toNat ≤ 1
    ∧ ¬ (pending 2).frameLatch.disp.toNat ≤ 1
    ∧ inRegion (pending 2).canvasLatch (pending 2).frameLatch 1 0 = true := by decide

theorem witness_HostCannotDisturb : busy afterFirst = true
    ∧ harmless afterFirst.params (.write 0x030 4 0xF 0x55) = true
    ∧ runEvent (.write 0x030 4 0xF 0x55) afterFirst
      = .next { afterFirst with regs := { afterFirst.regs with inBase := 0x55 } }
    ∧ harmless afterFirst.params (.write 0x004 4 0xF 0x3) = true := by
  refine ⟨by decide, by decide, rfl, by decide⟩

theorem witness_EngineReadsOnlyItsView :
    engineView { afterFirst with regs := { afterFirst.regs with inBase := 0x55 } } = engineView afterFirst
    ∧ { afterFirst with regs := { afterFirst.regs with inBase := 0x55 } } ≠ afterFirst := by
  refine ⟨rfl, ?_⟩
  intro h
  exact absurd (congrArg (fun s => s.regs.inBase) h) (by decide)

theorem witness_ClearCode : legalMinCode afterFirst.indexLatch.lm.toNat = true := by decide

/-- For FIRST, HIT and KWKWK, at the start and at the last index of the output. -/
theorem witness_code_outputs : afterFirst.pixCount.toNat ≤ outLength afterFirst
    ∧ ({ afterFirst with pixCount := 4 } : State).pixCount.toNat
      ≤ outLength ({ afterFirst with pixCount := 4 } : State) := by decide

/-- A HIT of a root and a KWKWK with an empty table, a HIT of a built slot. -/
theorem witness_NewSlotString : LzwRunning afterFirst ∧ afterFirst.lzw.nextFree.toNat < 4096
    ∧ (Instr.lzwHit 1).fits (codeCtx afterFirst) = true ∧ (Instr.lzwKwkwk 6).fits (codeCtx afterFirst) = true
    ∧ LzwRunning afterKwkwk ∧ (Instr.lzwHit 6).fits (codeCtx afterKwkwk) = true :=
  ⟨running_first, by decide, by decide, by decide, running_built, by decide⟩

theorem witness_SlotStrings : LzwRunning afterKwkwk ∧ initialised afterKwkwk (6 : Code).toNat
    ∧ initialised afterKwkwk (3 : Code).toNat
    ∧ ¬ (6 : Code).toNat < 2 ^ afterKwkwk.indexLatch.lm.toNat :=
  ⟨running_built, .inr ⟨by decide, by decide⟩, .inl (by decide), by decide⟩

theorem witness_LzwStepProgress : LzwInv afterFirst ∧ afterFirst.eng = .lzw ∧ afterFirst.status.abortReq = false :=
  ⟨⟨by decide, fun _ => running_first⟩, by decide, by decide⟩

theorem control_first : ControlInv afterFirst where
  busy_excludes := by decide
  done_excludes := by decide
  no_error_code := by decide
  error_code := fun h => absurd h (by decide)
  abort_busy := by decide
  not_rejected := by decide
  pending_valid := by decide
  in_init := by decide
  in_lzw := by decide
  in_comp := by decide
  in_disp := by decide

theorem storage_first : StorageInv afterFirst where
  params_legal := by decide
  inMem_wf := by decide
  idxMem_wf := by decide
  gct_wf := by decide
  lct_wf := by decide
  canvas_wf := by decide
  snap_wf := by decide
  table_wf := by decide
  inMem_below := by decide
  idxMem_below := by decide
  gct_below := by decide
  lct_below := by decide
  canvas_below := by decide
  snap_below := by decide
  table_below := by decide
  canvas_fits := by decide
  index_fits := by decide
  in_lzw := by decide
  in_init := by decide
  in_disp := by decide

theorem compositor_first : CompositorInv afterFirst where
  params_legal := by decide
  canvas_fits := by decide
  index_fits := by decide
  frame_fits := by decide
  index_open := by decide
  index_valid := by decide
  disposal_legal := by decide
  in_init := by decide
  in_compV := fun h => absurd h (by decide)
  in_compS := fun h => absurd h (by decide)
  in_compW := fun h => absurd h (by decide)
  in_disp := by decide

theorem witness_LzwTerminates : RunInv afterFirst ∧ afterFirst.eng = .lzw ∧ afterFirst.status.abortReq = false
    ∧ afterFirst.host.events = [] :=
  ⟨⟨control_first, storage_first, ⟨by decide, fun _ => running_first⟩, compositor_first⟩, by decide, by decide,
    by decide⟩

/-- The invariants hold of a state whose step is the KWKWK of LZW-S1. -/
theorem witness_invariants : RunInv afterFirst ∧ step afterFirst = .next afterKwkwk :=
  ⟨witness_LzwTerminates.1, rfl⟩

/-- One pixel of value 1 at M = 2 needs the byte 0C: codes 4 and 1. -/
def plainState : State :=
  { configured with
    inMem := bytesFrom0 (packCodes (plainCodes 2 [1]))
    regs := { configured.regs with frameSize := 0x00010001, lzwMin := 2, inLen := 1 } }

theorem witness_PlainStreamDecodes : quiet plainState ∧ plainState.params.legal = true
    ∧ plainState.regs.lzwMin.toNat = 2 ∧ (∀ v ∈ [(1 : Byte)], v.toNat < 2 ^ 2)
    ∧ legalSize plainState.params.maxDim plainState.params.idxMemBytes (plainState.regs.frameSize.toNat % 65536)
      (plainState.regs.frameSize.toNat / 65536)
    ∧ [(1 : Byte)].length = (plainState.regs.frameSize.toNat % 65536) * (plainState.regs.frameSize.toNat / 65536)
    ∧ plainState.regs.inLen.toNat = (packCodes (plainCodes 2 [1])).length
    ∧ plainState.regs.inBase.toNat + plainState.regs.inLen.toNat ≤ plainState.params.inMemBytes
    ∧ (∀ k, k < plainState.regs.inLen.toNat →
      inByte plainState (plainState.regs.inBase.toNat + k) = (packCodes (plainCodes 2 [1])).getD k 0) := by
  unfold quiet legalSize
  decide

theorem witness_CanvasInitFills : quiet configured
    ∧ legalSize configured.params.maxDim configured.params.canvasPixels (configured.regs.canvasSize.toNat % 65536)
      (configured.regs.canvasSize.toNat / 65536)
    ∧ configured.regs.gctCfg.getLsbD 0 = true
    ∧ configured.regs.bgIndex.toNat < 2 ^ (configured.regs.gctCfg.toNat / 2 + 1) := by
  unfold quiet legalSize
  decide

/-- The frame at (1, 0) is half off the canvas; TRANSP_EN = 0, disposal 3, no interlace. -/
def composeState : State := composing 1 0 0x0C0

theorem compositor_compose : CompositorInv composeState where
  params_legal := by decide
  canvas_fits := by decide
  index_fits := by decide
  frame_fits := by decide
  index_open := by decide
  index_valid := by decide
  disposal_legal := by decide
  in_init := by decide
  in_compV := fun h => absurd h (by decide)
  in_compS := fun h => absurd h (by decide)
  in_compW := fun h => absurd h (by decide)
  in_disp := by decide

/-- For ComposeDraws and RestoreToPrevious. -/
theorem witness_ComposeDraws : quiet composeState ∧ CompositorInv composeState
    ∧ composeState.status.canvasValid = true ∧ composeState.status.idxValid = true
    ∧ composeState.status.framePending = false ∧ disposalOf composeState.regs = 3
    ∧ ∃ u, exec .compose composeState = .next u
      ∧ ∀ n, n < outLength composeState → inTable u.frameLatch (idxByte composeState n) = true := by
  refine ⟨⟨rfl, rfl, rfl⟩, compositor_compose, rfl, rfl, rfl, by decide, _, rfl, ?_⟩
  decide

/-- Stream index 1 has no entry: no table is present. -/
def noTableState : State := { composeState with regs := { composeState.regs with gctCfg := 0 } }

theorem compositor_noTable : CompositorInv noTableState where
  params_legal := by decide
  canvas_fits := by decide
  index_fits := by decide
  frame_fits := by decide
  index_open := by decide
  index_valid := by decide
  disposal_legal := by decide
  in_init := by decide
  in_compV := fun h => absurd h (by decide)
  in_compS := fun h => absurd h (by decide)
  in_compW := fun h => absurd h (by decide)
  in_disp := by decide

theorem witness_ComposeRefusesImage : quiet noTableState ∧ CompositorInv noTableState
    ∧ noTableState.status.canvasValid = true ∧ noTableState.status.idxValid = true
    ∧ noTableState.status.framePending = false ∧ (disposalOf noTableState.regs).toNat ≤ 3
    ∧ 0 < outLength noTableState
    ∧ ∃ u, exec .compose noTableState = .next u ∧ inTable u.frameLatch (idxByte noTableState 0) = false :=
  ⟨⟨rfl, rfl, rfl⟩, compositor_noTable, rfl, rfl, rfl, by decide, by decide, _, rfl, by decide⟩

theorem witness_DisposeRestores : ∀ d ∈ [(2 : BitVec 3), 3], quiet (pending d)
    ∧ (pending d).status.framePending = true ∧ (pending d).status.canvasValid = true
    ∧ ((pending d).frameLatch.disp = 2 ∨ (pending d).frameLatch.disp = 3) ∧ 0 < regionSize (pending d) := by
  unfold quiet
  decide

/-- Two rows of an interlaced frame of 2 × 2 in the canvas. -/
def interlaced : State :=
  { State.reset with
    canvasLatch := { cw := 2, ch := 2, bgRgb := 0 }
    frameLatch := { FrameLatch.reset with w := 2, h := 2, interlace := true } }

theorem witness_PixelsDistinct : frameArea interlaced.frameLatch = 4
    ∧ (∀ k, k < 4 → inside interlaced.canvasLatch interlaced.frameLatch k = true)
    ∧ pixelCell interlaced 3 = pixelCell interlaced 3 := by decide

theorem witness_CallerKinds : (ErrorCode.aborted, (0x0B : Byte), CallerKind.timedOut) ∈ kindTable
    ∧ ({ Status.reset with err := true, errCode := 0x0B } : Status).errCode = 0x0B
    ∧ ({ Status.reset with rej := true } : Status).err = false := by decide

/-- LOADB of five bytes at 8: two words, the last three bytes zero. -/
def loading : State :=
  { State.reset with host := { HostPort.reset with events := loadB State.reset.params.base 8 [1, 2, 3, 4, 5] } }

theorem witness_LoadBytes : loading.params.legal = true ∧ busy loading = false
    ∧ 8 + 4 * (([1, 2, 3, 4, 5] : List Byte).length + 3) / 4 ≤ loading.params.inMemBytes
    ∧ loading.host.events = loadB loading.params.base 8 [1, 2, 3, 4, 5] := by decide

theorem witness_StepRunsInstruction :
    (pushEvent (wr State.reset.params.base 0x004 0x3) State.reset).host.events
      = .write (State.reset.params.base + 0x004) 4 0xF 0x3 :: []
    ∧ afterFirst.host.events = [] ∧ afterFirst.eng = .lzw ∧ afterFirst.status.abortReq = false
    ∧ afterFirst.lzw.width.toNat ≤ 8 * afterFirst.indexLatch.llen.toNat - afterFirst.bitPos.toNat := by decide

end Sys2Proof.Tests
end

/-! ## The strings of the code table (R55, R56) -/

namespace Sys2Proof.Machine

/-! What a running LZW_DECODE says of an initialised slot. -/

theorem LzwRunning.initialised_lt {s : State} (hs : LzwRunning s) {k : Nat} (hk : initialised s k) :
    k < s.lzw.nextFree.toNat := by
  have hlow := hs.free_low
  unfold initialised at hk
  omega

/-- The PREFIX of a built slot is an earlier initialised slot, its SUFFIX a root index (R56). -/
theorem LzwRunning.prefix_initialised {s : State} (hs : LzwRunning s) {k : Nat}
    (hlow : 2 ^ s.indexLatch.lm.toNat + 2 ≤ k) (hhigh : k < s.lzw.nextFree.toNat) :
    ∃ q, (slotAt s k).prefixCode = some q ∧ q.toNat < k ∧ initialised s q.toNat
      ∧ (slotAt s k).suffixIdx.toNat < 2 ^ s.indexLatch.lm.toNat := by
  obtain ⟨q, hq, hqk, hclear, hend, hsuffix⟩ := hs.built k hlow hhigh
  refine ⟨q, hq, hqk, ?_, hsuffix⟩
  unfold initialised
  omega

/-- Induction along PREFIX: a property of every root, and of every built slot whose PREFIX has it, is a property of
every initialised slot (R56). -/
theorem LzwRunning.slot_induction {s : State} (hs : LzwRunning s) {motive : Code → Prop}
    (root : ∀ k : Code, k.toNat < 2 ^ s.indexLatch.lm.toNat → motive k)
    (built : ∀ k q : Code, 2 ^ s.indexLatch.lm.toNat + 2 ≤ k.toNat → k.toNat < s.lzw.nextFree.toNat →
      (slotAt s k.toNat).prefixCode = some q → q.toNat < k.toNat → initialised s q.toNat → motive q → motive k)
    (k : Code) (hk : initialised s k.toNat) : motive k := by
  induction hn : k.toNat using Nat.strong_induction_on generalizing k with
  | _ n ih =>
    subst hn
    rcases hk with hroot | ⟨hlow, hhigh⟩
    · exact root k hroot
    · obtain ⟨q, hq, hqk, hqi, -⟩ := hs.prefix_initialised hlow hhigh
      exact built k q hlow hhigh hq hqk hqi (ih _ hqk q hqi rfl)

/-! STR of a root, and its recursion. -/

theorem LzwRunning.strOf_root {s : State} (hs : LzwRunning s) {k : Code}
    (hk : k.toNat < 2 ^ s.indexLatch.lm.toNat) : strOf s k = [BitVec.ofNat 8 k.toNat] := by
  simp only [strOf, strChain, hs.roots _ hk]

/-- The chain of an initialised slot ends within 4095 slots, so the last unit of fuel is not needed. -/
theorem LzwRunning.strChain_eq_strOf {s : State} (hs : LzwRunning s) {k : Code} (hk : initialised s k.toNat)
    {fuel : Nat} (hf : k.toNat < fuel) : strChain s fuel k.toNat = strOf s k := by
  have hfuel : k.toNat < 4096 := k.isLt
  rw [strOf, strChain_of_lt hs hk hf, strChain_of_lt hs hk hfuel]

/-- A slot with a PREFIX has its PREFIX's string, followed one slot less far, and its SUFFIX (R55). -/
theorem strOf_of_prefix {s : State} {k q : Code} (hq : (slotAt s k.toNat).prefixCode = some q) :
    strOf s k = strChain s 4095 q.toNat ++ [(slotAt s k.toNat).suffixIdx] := by
  rw [strOf, strChain, hq]

theorem LzwRunning.strOf_built {s : State} (hs : LzwRunning s) {k q : Code}
    (hq : (slotAt s k.toNat).prefixCode = some q) (hqi : initialised s q.toNat) (hqk : q.toNat < k.toNat) :
    strOf s k = strOf s q ++ [(slotAt s k.toNat).suffixIdx] := by
  have hk : k.toNat < 4096 := k.isLt
  rw [strOf_of_prefix hq, hs.strChain_eq_strOf hqi (by omega)]

/-! The bounds of R56. -/

theorem LzwRunning.length_strOf_le {s : State} (hs : LzwRunning s) (k : Code) (hk : initialised s k.toNat) :
    (strOf s k).length ≤ max 1 (k.toNat - 2 ^ s.indexLatch.lm.toNat) := by
  refine hs.slot_induction (motive := fun k => (strOf s k).length ≤ max 1 (k.toNat - 2 ^ s.indexLatch.lm.toNat))
    (fun k hroot => ?_) (fun k q hlow _ hq hqk hqi ih => ?_) k hk
  · rw [hs.strOf_root hroot, List.length_singleton]
    omega
  · rw [hs.strOf_built hq hqi hqk, List.length_append, List.length_singleton]
    omega

/-- Every string is made of root indices (R56). -/
theorem LzwRunning.strOf_small {s : State} (hs : LzwRunning s) (k : Code) (hk : initialised s k.toNat) :
    ∀ v ∈ strOf s k, v.toNat < 2 ^ s.indexLatch.lm.toNat := by
  refine hs.slot_induction (motive := fun k => ∀ v ∈ strOf s k, v.toNat < 2 ^ s.indexLatch.lm.toNat)
    (fun k hroot => ?_) (fun k q hlow hhigh hq hqk hqi ih => ?_) k hk
  · rw [hs.strOf_root hroot]
    simpa using Nat.lt_of_le_of_lt (Nat.mod_le _ _) hroot
  · obtain ⟨-, -, -, -, hsuffix⟩ := hs.prefix_initialised hlow hhigh
    rw [hs.strOf_built hq hqi hqk]
    simp only [List.mem_append, List.mem_singleton]
    rintro v (hv | rfl)
    · exact ih v hv
    · exact hsuffix

theorem firstOf_mem {str : List Byte} (h : str ≠ []) : firstOf str ∈ str := by
  cases str with
  | nil => exact absurd rfl h
  | cons v vs => exact List.mem_cons_self

/-- The first index of an initialised slot's string is a root index. -/
theorem LzwRunning.firstOf_strOf_small {s : State} (hs : LzwRunning s) (k : Code) (hk : initialised s k.toNat) :
    (firstOf (strOf s k)).toNat < 2 ^ s.indexLatch.lm.toNat :=
  hs.strOf_small k hk _ (firstOf_mem (strOf_ne_nil s k))

/-! Building slot NEXT_FREE changes no string. -/

/-- A state that has every initialised slot as it was follows their chains as before. -/
theorem LzwRunning.strChain_kept {s t : State} (hs : LzwRunning s)
    (ht : ∀ k, initialised s k → slotAt t k = slotAt s k) (fuel : Nat) {k : Nat} (hk : initialised s k) :
    strChain t fuel k = strChain s fuel k := by
  induction fuel generalizing k with
  | zero => rfl
  | succ fuel ih =>
    simp only [strChain, ht k hk]
    rcases hk with hroot | ⟨hlow, hhigh⟩
    · rw [(hs.roots k hroot).1]
    · obtain ⟨q, hq, -, hqi, -⟩ := hs.prefix_initialised hlow hhigh
      simp only [hq, ih hqi]

/-- `t` is `s` with slot NEXT_FREE built from PREV and the SUFFIX `k`. -/
def BuildsSlot (s t : State) (k : Byte) : Prop :=
  ∀ n, slotAt t n = if n = s.lzw.nextFree.toNat then { prefixCode := some s.lzw.prev, suffixIdx := k } else slotAt s n

theorem BuildsSlot.strOf_kept {s t : State} {v : Byte} (hb : BuildsSlot s t v) (hs : LzwRunning s) (k : Code)
    (hk : initialised s k.toNat) : strOf t k = strOf s k := by
  refine hs.strChain_kept (fun n hn => ?_) 4096 hk
  rw [hb n, if_neg (Nat.ne_of_lt (hs.initialised_lt hn))]

theorem BuildsSlot.strOf_new {s t : State} {v : Byte} (hb : BuildsSlot s t v) (hs : LzwRunning s)
    (hprev : s.lzw.prevValid = true) {k : Code} (hk : k.toNat = s.lzw.nextFree.toNat) :
    strOf t k = strOf s s.lzw.prev ++ [v] := by
  have hprevInit := hs.prev_initialised hprev
  have hprevLt := hs.initialised_lt hprevInit
  have hkLt : k.toNat < 4096 := k.isLt
  have hslot : slotAt t k.toNat = { prefixCode := some s.lzw.prev, suffixIdx := v } := by rw [hb, if_pos hk]
  have hkept : strChain t 4095 s.lzw.prev.toNat = strChain s 4095 s.lzw.prev.toNat :=
    hs.strChain_kept (fun n hn => by rw [hb n, if_neg (Nat.ne_of_lt (hs.initialised_lt hn))]) 4095 hprevInit
  rw [strOf_of_prefix (by rw [hslot]), hslot, hkept, hs.strChain_eq_strOf hprevInit (by omega)]

theorem slotAt_finishIfComplete (s : State) (n : Nat) : slotAt (finishIfComplete s) n = slotAt s n := by
  unfold finishIfComplete
  split <;> rfl

/-- What HIT and KWKWK share: emit a string, build a slot on PREV, become PREV, end when complete. -/
theorem buildsSlot_emit_add {s : State} (hfree : s.lzw.nextFree.toNat < 4096) (c : Code) (v : Byte) (str : List Byte) :
    BuildsSlot s (finishIfComplete (setPrev c (addSlot s.lzw.prev v (emit str s)))) v := by
  intro n
  have hlzw : (emit str s).lzw = s.lzw := by rw [emit_eq]
  rw [slotAt_finishIfComplete]
  change slotAt (addSlot s.lzw.prev v (emit str s)) n = _
  rw [slotAt_addSlot, emit_slotAt, hlzw]
  simp only [hfree, true_and]

end Sys2Proof.Machine

namespace Sys2Proof.Proofs

open Sys2Proof.Machine

/-- Settles O39: the recursion of R55, and its bounds by induction along PREFIX. -/
theorem slotStrings : Obligations.SlotStrings := by
  intro s k hs hk
  refine ⟨hs.strOf_root, fun hbuilt => ?_, strOf_ne_nil s k, hs.strOf_small k hk⟩
  rcases hk with hroot | ⟨hlow, hhigh⟩
  · omega
  · obtain ⟨q, hq, hqk, hqi, -⟩ := hs.prefix_initialised hlow hhigh
    have hlen := hs.length_strOf_le k (.inr ⟨hlow, hhigh⟩)
    exact ⟨q, hq, hs.strOf_built hq hqi hqk, by omega⟩

/-- Settles O38: HIT and KWKWK leave the state with slot NEXT_FREE built on PREV and every other slot as it was. -/
theorem newSlotString : Obligations.NewSlotString := by
  intro s c hs hfree
  constructor
  · intro hfits
    simp only [Instr.fits, codeCtx, Bool.and_eq_true] at hfits
    obtain ⟨hprev, -⟩ := hfits
    have hb := buildsSlot_emit_add hfree c (firstOf (strOf s c)) (strOf s c)
    refine ⟨_, rfl, hb.strOf_new hs hprev ?_, hb.strOf_kept hs⟩
    rw [BitVec.toNat_ofNat, Nat.mod_eq_of_lt hfree]
  · intro hfits
    simp only [Instr.fits, codeCtx, Bool.and_eq_true] at hfits
    obtain ⟨⟨⟨hprev, -⟩, hc⟩, -⟩ := hfits
    have hb := buildsSlot_emit_add hfree c (firstOf (strOf s s.lzw.prev))
      (strOf s s.lzw.prev ++ [firstOf (strOf s s.lzw.prev)])
    exact ⟨_, rfl, hb.strOf_new hs hprev (of_decide_eq_true hc), hb.strOf_kept hs⟩

end Sys2Proof.Proofs

/-! ## What an LZW code class does (R133 to R144) -/

namespace Sys2Proof.Machine

/-- `t` is `s` but for the code table, the LZW engine registers, IDX_MEM and PIX_COUNT. -/
def OnlyDecoder (s t : State) : Prop :=
  t = { s with lzw := t.lzw, table := t.table, idxMem := t.idxMem, pixCount := t.pixCount }

/-- What every code class does: it raises an error, or works on the decoder and then tests for completion. -/
def CodeFrame (s t : State) : Prop :=
  (∃ e i0 i1, t = raise e i0 i1 s) ∨ ∃ u, OnlyDecoder s u ∧ t = finishIfComplete u

/-- Whatever does not look at the decoder is the same. -/
theorem OnlyDecoder.proj {α : Type} {s t : State} (h : OnlyDecoder s t) (f : State → α) :
    f t = f { s with lzw := t.lzw, table := t.table, idxMem := t.idxMem, pixCount := t.pixCount } :=
  congrArg f h

theorem onlyDecoder_emit (str : List Byte) (s : State) : OnlyDecoder s (emit str s) := by
  unfold OnlyDecoder
  rw [emit_eq]

theorem OnlyDecoder.setPrev {s u : State} (h : OnlyDecoder s u) (c : Code) : OnlyDecoder s (setPrev c u) := by
  unfold OnlyDecoder at h ⊢
  rw [h]
  rfl

theorem OnlyDecoder.addSlot {s u : State} (h : OnlyDecoder s u) (q : Code) (v : Byte) :
    OnlyDecoder s (addSlot q v u) := by
  unfold OnlyDecoder at h ⊢
  rw [addSlot_eq, h]

theorem codeFrame_clear (s : State) : CodeFrame s (finishIfComplete (initTable s)) :=
  .inr ⟨initTable s, rfl, rfl⟩

theorem codeFrame_raise (e : ErrorCode) (i0 i1 : Word) (s : State) : CodeFrame s (raise e i0 i1 s) :=
  .inl ⟨e, i0, i1, rfl⟩

theorem codeFrame_first (c : Code) (str : List Byte) (s : State) :
    CodeFrame s (finishIfComplete (setPrev c (emit str s))) :=
  .inr ⟨_, (onlyDecoder_emit str s).setPrev c, rfl⟩

theorem codeFrame_build (c q : Code) (v : Byte) (str : List Byte) (s : State) :
    CodeFrame s (finishIfComplete (setPrev c (addSlot q v (emit str s)))) :=
  .inr ⟨_, ((onlyDecoder_emit str s).addSlot q v).setPrev c, rfl⟩

/-- What the class of the code `c`, decoded in the state `s`, makes of `s`; HIT and KWKWK differ in the string they
emit and in where their code comes from. -/
inductive CodeResult (s : State) (c : Code) : State → Prop where
  | clear : CodeResult s c (finishIfComplete (initTable s))
  | fails (e : ErrorCode) (i0 i1 : Word) : CodeResult s c (raise e i0 i1 s)
  | first (root : c.toNat < 2 ^ s.indexLatch.lm.toNat) :
      CodeResult s c (finishIfComplete (setPrev c (emit [c.setWidth 8] s)))
  | hit (prev : s.lzw.prevValid = true) (known : initialised s c.toNat) :
      CodeResult s c
        (finishIfComplete (setPrev c (addSlot s.lzw.prev (firstOf (strOf s c)) (emit (strOf s c) s))))
  | kwkwk (prev : s.lzw.prevValid = true) (low : 2 ^ s.indexLatch.lm.toNat + 2 ≤ c.toNat)
      (next : c.toNat = s.lzw.nextFree.toNat) :
      CodeResult s c
        (finishIfComplete (setPrev c (addSlot s.lzw.prev (firstOf (strOf s s.lzw.prev))
          (emit (strOf s s.lzw.prev ++ [firstOf (strOf s s.lzw.prev)]) s))))

/-- A code's class has a meaning in every state, one of those of `CodeResult`. -/
theorem exec_decodeCode (s : State) (c : Code) :
    ∃ t, exec (decodeCode (codeCtx s) c) s = .next t ∧ CodeResult s c t := by
  rcases decodeCode_cases (codeCtx s) c with
    ⟨-, hd⟩ | ⟨-, hd⟩ | ⟨-, hroot, hd⟩ | ⟨hprev, hknown, hd⟩ | ⟨hprev, hlow, hnext, -, hd⟩ | ⟨-, -, hd⟩ <;> rw [hd]
  · exact ⟨_, rfl, .clear⟩
  · exact ⟨_, rfl, .fails _ _ _⟩
  · exact ⟨_, rfl, .first hroot⟩
  · exact ⟨_, rfl, .hit hprev hknown⟩
  · exact ⟨_, rfl, .kwkwk hprev hlow hnext⟩
  · exact ⟨_, rfl, .fails _ _ _⟩

theorem codeResult_of_exec {s t : State} {c : Code} (hx : exec (decodeCode (codeCtx s) c) s = .next t) :
    CodeResult s c t := by
  obtain ⟨u, hu, hr⟩ := exec_decodeCode s c
  rw [hx] at hu
  cases hu
  exact hr

theorem CodeResult.frame {s t : State} {c : Code} (h : CodeResult s c t) : CodeFrame s t := by
  cases h with
  | clear => exact codeFrame_clear s
  | fails e i0 i1 => exact codeFrame_raise e i0 i1 s
  | first => exact codeFrame_first c _ s
  | hit => exact codeFrame_build c _ _ _ s
  | kwkwk => exact codeFrame_build c _ _ _ s

end Sys2Proof.Machine

/-! ## The invariant of STATUS and ENG_STATE (R26, R48, R230, R231) -/

namespace Sys2Proof.Machine

/-- What the end of an operation relies on: no abort is asked for, and the rejection and canvas flags are consistent. -/
structure ReadyToEnd (st : Status) : Prop where
  no_abort : st.abortReq = false
  not_rejected : st.rej = false → st.rejMem = false ∧ st.rejOp = 0
  pending_valid : st.framePending = true → st.canvasValid = true

/-- The flags and LAST_OP that each operation runs with (R48, R230, R26). -/
def RunsWith (eng : EngState) (st : Status) : Prop :=
  match eng with
  | .idle => True
  | .init => st.canvasValid = false ∧ st.framePending = false ∧ st.lastOp = 0x2
  | .lzw => st.idxValid = false ∧ st.lastOp = 0x3
  | .compV | .compS | .compW =>
    st.canvasValid = true ∧ st.idxValid = true ∧ st.framePending = false ∧ st.lastOp = 0x4
  | .disp => st.canvasValid = true ∧ st.framePending = false ∧ st.lastOp = 0x5

/-- DONE, ERR and ERR_CODE as they are while an operation runs. -/
structure NoOutcome (st : Status) : Prop where
  done_clear : st.done = false
  err_clear : st.err = false
  code_clear : st.errCode = 0

/-- The invariant speaks of STATUS and ENG_STATE alone. -/
theorem ControlInv.of_eq {s t : State} (h : ControlInv s) (hst : t.status = s.status) (heng : t.eng = s.eng) :
    ControlInv t := by
  have hbusy : busy t = busy s := by rw [busy, busy, heng]
  obtain ⟨_, _, _, _, _, _, _, _, _, _, _⟩ := h
  constructor <;> simp only [hst, heng, hbusy] <;> assumption

theorem ControlInv.ready {s : State} (h : ControlInv s) (ha : s.status.abortReq = false) : ReadyToEnd s.status :=
  ⟨ha, h.not_rejected, h.pending_valid⟩

theorem ControlInv.ready_of_idle {s : State} (h : ControlInv s) (hb : busy s = false) : ReadyToEnd s.status :=
  h.ready (by
    cases ha : s.status.abortReq
    · rfl
    · rw [h.abort_busy ha] at hb; cases hb)

theorem ControlInv.noOutcome {s : State} (h : ControlInv s) (hb : busy s = true) : NoOutcome s.status :=
  ⟨(h.busy_excludes hb).1, (h.busy_excludes hb).2, h.no_error_code (h.busy_excludes hb).2⟩

/-- An operation without an outcome, with the flags it runs with, satisfies the invariant. -/
theorem controlInv_of_running {s : State} (hr : ReadyToEnd s.status) (ho : NoOutcome s.status)
    (hw : RunsWith s.eng s.status) : ControlInv s where
  busy_excludes _ := ⟨ho.done_clear, ho.err_clear⟩
  done_excludes _ := ho.err_clear
  no_error_code _ := ho.code_clear
  error_code he := absurd he (by rw [ho.err_clear]; decide)
  abort_busy ha := absurd ha (by rw [hr.no_abort]; decide)
  not_rejected := hr.not_rejected
  pending_valid := hr.pending_valid
  in_init he := by rw [he] at hw; exact hw
  in_lzw he := by rw [he] at hw; exact hw
  in_comp he := by rcases he with he | he | he <;> rw [he] at hw <;> exact hw
  in_disp he := by rw [he] at hw; exact hw

theorem controlInv_raise {s : State} (hr : ReadyToEnd s.status) (e : ErrorCode) (i0 i1 : Word) :
    ControlInv (raise e i0 i1 s) where
  busy_excludes hb := absurd hb (by simp [busy])
  done_excludes := nofun
  no_error_code := nofun
  error_code _ := ⟨e, rfl⟩
  abort_busy ha := absurd ha (by simp [hr.no_abort])
  not_rejected := hr.not_rejected
  pending_valid := hr.pending_valid
  in_init := nofun
  in_lzw := nofun
  in_comp := nofun
  in_disp := nofun

theorem controlInv_finish {s : State} (hr : ReadyToEnd s.status) : ControlInv (finish s) where
  busy_excludes hb := absurd hb (by simp [busy])
  done_excludes _ := rfl
  no_error_code _ := rfl
  error_code := nofun
  abort_busy ha := absurd ha (by simp [hr.no_abort])
  not_rejected := hr.not_rejected
  pending_valid := hr.pending_valid
  in_init := nofun
  in_lzw := nofun
  in_comp := nofun
  in_disp := nofun

/-! Acceptance. -/

theorem ControlInv.accept_ready {s : State} (h : ControlInv s) (hb : busy s = false) (op : BitVec 4) :
    ReadyToEnd (accept op s).status :=
  let ⟨hab, hrej, hpend⟩ := h.ready_of_idle hb
  ⟨hab, hrej, hpend⟩

theorem acceptCanvasInit_control {s : State} (h : ControlInv s) (hb : busy s = false) :
    ControlInv (acceptCanvasInit (accept 0x2 s)) := by
  have ha := h.accept_ready hb 0x2
  have hr : ReadyToEnd (beginCanvasInit (accept 0x2 s)).status :=
    ⟨ha.no_abort, ha.not_rejected, nofun⟩
  unfold acceptCanvasInit
  split
  · exact controlInv_raise hr _ _ _
  · split
    · exact controlInv_raise hr _ _ _
    · exact controlInv_of_running hr ⟨rfl, rfl, rfl⟩ ⟨rfl, rfl, rfl⟩

theorem acceptLzw_control {s : State} (h : ControlInv s) (hb : busy s = false) :
    ControlInv (acceptLzw (accept 0x3 s)) := by
  have ha := h.accept_ready hb 0x3
  have hr : ReadyToEnd (beginLzw (accept 0x3 s)).status := ⟨ha.no_abort, ha.not_rejected, ha.pending_valid⟩
  unfold acceptLzw
  split
  · exact controlInv_raise hr _ _ _
  · split
    · exact controlInv_raise hr _ _ _
    · split
      · exact controlInv_raise hr _ _ _
      · exact controlInv_of_running hr ⟨rfl, rfl, rfl⟩ ⟨rfl, rfl⟩

theorem acceptCompose_control {s : State} (h : ControlInv s) (hb : busy s = false) :
    ControlInv (acceptCompose (accept 0x4 s)) := by
  have hr := h.accept_ready hb 0x4
  unfold acceptCompose
  split
  · exact controlInv_raise hr _ _ _
  · rename_i hflags
    simp only [not_or, Bool.not_eq_false, Bool.not_eq_true] at hflags
    obtain ⟨hcanvas, hidx, hpending⟩ := hflags
    split
    · exact controlInv_raise hr _ _ _
    · exact controlInv_of_running hr ⟨rfl, rfl, rfl⟩ ⟨hcanvas, hidx, hpending, rfl⟩

theorem acceptDispose_control {s : State} (h : ControlInv s) (hb : busy s = false) :
    ControlInv (acceptDispose (accept 0x5 s)) := by
  have ha := h.accept_ready hb 0x5
  have hr : ReadyToEnd (beginDispose (accept 0x5 s)).status :=
    ⟨ha.no_abort, ha.not_rejected, nofun⟩
  unfold acceptDispose
  split
  · exact controlInv_raise ha _ _ _
  · rename_i hflags
    simp only [not_or, Bool.not_eq_false] at hflags
    split
    · exact controlInv_finish hr
    · exact controlInv_of_running hr ⟨rfl, rfl, rfl⟩ ⟨hflags.2, rfl, rfl⟩

/-! The Engine's steps. -/

theorem endByAbort_control {s : State} (h : ControlInv s) : ControlInv (endByAbort s) := by
  have hpend := h.pending_valid
  have hcanvasFalse : s.eng = .disp → s.status.framePending = true → False := fun he hp => by
    rw [(h.in_disp he).2.1] at hp; cases hp
  refine controlInv_raise ?_ _ _ _
  cases he : s.eng <;> refine ⟨rfl, h.not_rejected, ?_⟩
  case disp => exact fun hp => (hcanvasFalse he hp).elim
  case idle | init | lzw => exact hpend
  case compV | compS | compW => exact nofun

theorem initStep_control {s : State} (h : ControlInv s) (ha : s.status.abortReq = false) :
    ControlInv (initStep s) := by
  unfold initStep
  split
  · exact controlInv_finish ⟨ha, h.not_rejected, fun _ => rfl⟩
  · exact h.of_eq rfl rfl

theorem compVStep_control {s : State} (h : ControlInv s) (he : s.eng = .compV) (ha : s.status.abortReq = false) :
    ControlInv (compVStep s) := by
  unfold compVStep
  split
  · exact controlInv_raise (h.ready ha) _ _ _
  · split
    · exact controlInv_of_running (h.ready ha) (h.noOutcome (by simp [busy, he])) (h.in_comp (.inl he))
    · exact h.of_eq rfl rfl

theorem compSStep_control {s : State} (h : ControlInv s) (he : s.eng = .compS) (ha : s.status.abortReq = false) :
    ControlInv (compSStep s) :=
  controlInv_of_running (h.ready ha) (h.noOutcome (by simp [busy, he])) (h.in_comp (.inr (.inl he)))

theorem compWStep_control {s : State} (h : ControlInv s) (he : s.eng = .compW) (ha : s.status.abortReq = false) :
    ControlInv (compWStep s) := by
  have hw : (countIndex (writePixel s)).status = s.status ∧ (countIndex (writePixel s)).eng = s.eng := by
    rw [writePixel_eq]; exact ⟨rfl, rfl⟩
  unfold compWStep
  split
  · exact controlInv_finish ⟨ha, h.not_rejected, fun _ => (h.in_comp (.inr (.inr he))).1⟩
  · exact h.of_eq hw.1 hw.2

theorem dispStep_control {s : State} (h : ControlInv s) (ha : s.status.abortReq = false) :
    ControlInv (dispStep s) := by
  unfold dispStep
  rw [restorePixel_eq]
  dsimp only
  split
  · exact h.of_eq rfl rfl
  · exact controlInv_finish (h.ready ha)

theorem CodeFrame.control {s t : State} (hf : CodeFrame s t) (h : ControlInv s) (ha : s.status.abortReq = false) :
    ControlInv t := by
  obtain ⟨e, i0, i1, rfl⟩ | ⟨u, hu, rfl⟩ := hf
  · exact controlInv_raise (h.ready ha) _ _ _
  · have hst : u.status = s.status := hu.proj State.status
    have heng : u.eng = s.eng := hu.proj State.eng
    unfold finishIfComplete
    split
    · rw [hst]
      exact controlInv_finish ⟨ha, h.not_rejected, h.pending_valid⟩
    · exact h.of_eq hst heng

/-! The Host's accesses and the resets. -/

theorem statusW1C_control {s : State} (h : ControlInv s) (w : Word) :
    ControlInv { s with status := statusW1C w s.status } where
  busy_excludes hb := by
    obtain ⟨hd, he⟩ := h.busy_excludes hb
    simp [statusW1C, hd, he]
  done_excludes hd := by
    simp only [statusW1C, Bool.and_eq_true] at hd ⊢
    simp [h.done_excludes hd.1]
  no_error_code he := by
    simp only [statusW1C, Bool.and_eq_false_iff, Bool.not_eq_false'] at he ⊢
    split
    · rfl
    · rename_i hw; exact h.no_error_code (he.resolve_right hw)
  error_code he := by
    simp only [statusW1C, Bool.and_eq_true, Bool.not_eq_true'] at he ⊢
    rw [if_neg (by rw [he.2]; decide)]
    exact h.error_code he.1
  abort_busy := h.abort_busy
  not_rejected hr := by
    simp only [statusW1C] at hr ⊢
    cases hw : w.getLsbD 3 <;> rw [hw] at hr
    · simpa using h.not_rejected (by simpa using hr)
    · simp
  pending_valid := h.pending_valid
  in_init := h.in_init
  in_lzw := h.in_lzw
  in_comp := h.in_comp
  in_disp := h.in_disp

/-- While busy, REJ may be set and ABORT_REQ raised. -/
theorem ControlInv.with_rejection {s : State} (h : ControlInv s) (op : BitVec 4) (mem : Bool) :
    ControlInv { s with status := { s.status with rej := true, rejOp := op, rejMem := mem } } :=
  { h with not_rejected := fun hr => absurd hr (by simp) }

theorem ControlInv.with_abort {s : State} (h : ControlInv s) (hb : busy s = true) :
    ControlInv { s with status := { s.status with abortReq := true } } :=
  { h with abort_busy := fun _ => hb }

/-- STATUS after reset, with the Engine idle, satisfies the invariant. -/
theorem controlInv_of_reset {s : State} (hst : s.status = Status.reset) (heng : s.eng = .idle) : ControlInv s := by
  refine controlInv_of_running ?_ ?_ ?_ <;> rw [hst]
  · exact ⟨rfl, fun _ => ⟨rfl, rfl⟩, nofun⟩
  · exact ⟨rfl, rfl, rfl⟩
  · rw [heng]; trivial

theorem controlInv_keptByParts : KeptByParts ControlInv where
  host _ _ _ h := h.of_eq rfl rfl
  regs _ _ h := h.of_eq rfl rfl
  statusWrite _ w h := statusW1C_control h w
  dropped _ _ h := h.with_rejection _ true
  gctWrite _ _ _ _ _ h := h.of_eq rfl rfl
  lctWrite _ _ _ _ _ h := h.of_eq rfl rfl
  inWrite _ _ _ _ h := h.of_eq rfl rfl
  softReset _ _ := controlInv_of_reset rfl rfl
  hardwareReset _ _ := controlInv_of_reset rfl rfl
  abort _ hb h := h.with_abort hb
  reject _ op _ h := h.with_rejection op _
  illegal _ op _ hb h := controlInv_raise (h.accept_ready hb op) _ _ _
  canvasInit _ hb h := acceptCanvasInit_control h hb
  lzwDecode _ hb h := acceptLzw_control h hb
  compose _ hb h := acceptCompose_control h hb
  dispose _ hb h := acceptDispose_control h hb
  aborted _ _ _ h := endByAbort_control h
  initStep _ _ ha h := initStep_control h ha
  compVStep _ he ha h := compVStep_control h he ha
  compSStep _ he ha h := compSStep_control h he ha
  compWStep _ he ha h := compWStep_control h he ha
  dispStep _ _ ha h := dispStep_control h ha
  exhausted _ _ ha _ h := controlInv_raise (h.ready ha) _ _ _
  code s _ _ ha _ h hx :=
    (codeResult_of_exec (s := advanceCursor s) hx).frame.control (h.of_eq rfl rfl) ha

end Sys2Proof.Machine

namespace Sys2Proof.Proofs

open Sys2Proof.Machine

/-- Settles O57: every part of a step keeps the invariant. -/
theorem controlInvariant : Obligations.ControlInvariant :=
  fun _ _ h hx => step_keeps controlInv_keptByParts h hx

end Sys2Proof.Proofs

/-! ## Every memory inside its capacity and in canonical form (R53, R62, R71, R77) -/

namespace Sys2Proof.Machine

/-- The end of an operation leaves the memories as they are, and no operation's own bound is left to hold. -/
theorem StorageInv.raise {s : State} (h : StorageInv s) (e : ErrorCode) (i0 i1 : Word) : StorageInv (raise e i0 i1 s) :=
  { h with in_lzw := nofun, in_init := nofun, in_disp := nofun }

theorem StorageInv.finish {s : State} (h : StorageInv s) : StorageInv (finish s) :=
  { h with in_lzw := nofun, in_init := nofun, in_disp := nofun }

/-- STATUS has no part in the bounds. -/
theorem StorageInv.with_status {s : State} (h : StorageInv s) (st : Status) : StorageInv { s with status := st } :=
  { h with }

/-! Acceptance. -/

theorem StorageInv.accept {s : State} (h : StorageInv s) (op : BitVec 4) : StorageInv (accept op s) := { h with }

theorem StorageInv.beginCanvasInit {s : State} (h : StorageInv s) : StorageInv (beginCanvasInit s) := { h with }

theorem StorageInv.beginLzw {s : State} (h : StorageInv s) : StorageInv (beginLzw s) := { h with }

theorem StorageInv.beginDispose {s : State} (h : StorageInv s) : StorageInv (beginDispose s) := { h with }

/-- A canvas that passed the size check fits its memory, and its first cell is in it (R171). -/
theorem latchCanvas_storage {s : State} (h : StorageInv s)
    (hsize : sizeLegal s.params.maxDim s.params.canvasPixels (cwCfg s.regs).toNat (chCfg s.regs).toNat = true) :
    StorageInv (latchCanvas s) := by
  obtain ⟨hw, hh, -, -, harea⟩ := sizeLegal_iff.mp hsize
  exact { h with
    canvas_fits := harea
    in_lzw := nofun
    in_init := fun _ => Nat.mul_pos hw hh
    in_disp := nofun }

/-- A frame that passed the size check fits IDX_MEM, and a legal M fits the code table (R130, R131). -/
theorem latchStream_storage {s : State} (h : StorageInv s)
    (hsize : sizeLegal s.params.maxDim s.params.idxMemBytes (frameW s.regs).toNat (frameH s.regs).toNat = true)
    (hmin : legalMinCode s.regs.lzwMin.toNat = true) :
    StorageInv { initTable (latchStream s) with eng := .lzw } := by
  obtain ⟨-, -, -, -, harea⟩ := sizeLegal_iff.mp hsize
  exact { h with
    table_wf := initTable_wf (s := latchStream s) h.table_wf
    table_below := initTable_below (s := latchStream s) hmin h.table_below
    index_fits := harea
    in_lzw := fun _ => hmin
    in_init := nofun
    in_disp := nofun }

theorem acceptCanvasInit_storage {s : State} (h : StorageInv s) : StorageInv (acceptCanvasInit s) := by
  unfold acceptCanvasInit
  split
  · exact h.beginCanvasInit.raise _ _ _
  · rename_i hsize
    split
    · exact h.beginCanvasInit.raise _ _ _
    · exact latchCanvas_storage h.beginCanvasInit (by simpa using hsize)

theorem acceptLzw_storage {s : State} (h : StorageInv s) : StorageInv (acceptLzw s) := by
  unfold acceptLzw
  split
  · exact h.beginLzw.raise _ _ _
  · rename_i hsize
    split
    · exact h.beginLzw.raise _ _ _
    · rename_i hmin
      split
      · exact h.beginLzw.raise _ _ _
      · exact latchStream_storage h.beginLzw (by simpa using hsize) (by simpa using hmin)

theorem acceptCompose_storage {s : State} (h : StorageInv s) : StorageInv (acceptCompose s) := by
  unfold acceptCompose
  split
  · exact h.raise _ _ _
  · split
    · exact h.raise _ _ _
    · exact { h with in_lzw := nofun, in_init := nofun, in_disp := nofun }

/-- The walk over a REGION that is not empty begins inside it (R190). -/
theorem acceptDispose_storage {s : State} (h : StorageInv s) : StorageInv (acceptDispose s) := by
  unfold acceptDispose
  split
  · exact h.raise _ _ _
  · split
    · exact h.beginDispose.finish
    · rename_i hregion
      simp only [not_or, Bool.not_eq_true] at hregion
      exact { h with
        in_lzw := nofun
        in_init := nofun
        in_disp := fun _ => inRegion_start hregion.2 }

/-! The Engine's steps. -/

/-- INIT_STEP's cell is below CW × CH, and so is the next one while any is left (R172). -/
theorem initStep_storage {s : State} (h : StorageInv s) (he : s.eng = .init) : StorageInv (initStep s) := by
  have hn := h.in_init he
  have hwf := Store.put_wf s.work.n s.canvasLatch.bgRgb h.canvas_wf
  have hbelow := Store.put_below s.canvasLatch.bgRgb (Nat.lt_of_lt_of_le hn h.canvas_fits) h.canvas_below
  unfold initStep
  split
  · exact { h with
      canvas_wf := hwf
      canvas_below := hbelow
      in_lzw := nofun
      in_init := nofun
      in_disp := nofun }
  · rename_i hlast
    exact { h with
      canvas_wf := hwf
      canvas_below := hbelow
      in_init := fun _ => show s.work.n + 1 < canvasArea s by omega
      in_disp := fun hd => absurd (he.symm.trans hd) (by decide) }

theorem compVStep_storage {s : State} (h : StorageInv s) (he : s.eng = .compV) : StorageInv (compVStep s) := by
  unfold compVStep
  split
  · exact h.raise _ _ _
  · split
    · exact { h with in_lzw := nofun, in_init := nofun, in_disp := nofun }
    · exact { h with in_disp := fun hd => absurd (he.symm.trans hd) (by decide) }

/-- SnapCopy stays below CW × CH (R180). -/
theorem compSStep_storage {s : State} (h : StorageInv s) : StorageInv (compSStep s) :=
  { h with
    snap_wf := Store.fillBelow_wf _ _ h.snap_wf
    snap_below := Store.fillBelow_below _ h.canvas_fits h.snap_below
    in_lzw := nofun
    in_init := nofun
    in_disp := nofun }

theorem writePixel_storage {s : State} (h : StorageInv s) : StorageInv (writePixel s) := by
  have hwf := writePixel_wf h.canvas_wf
  have hbelow := writePixel_below h.canvas_fits h.canvas_below
  rw [writePixel_eq]
  exact { h with canvas_wf := hwf, canvas_below := hbelow }

theorem compWStep_storage {s : State} (h : StorageInv s) (he : s.eng = .compW) : StorageInv (compWStep s) := by
  have hp := writePixel_storage h
  have heng : (writePixel s).eng = .compW := by rw [writePixel_eq]; exact he
  have hc : StorageInv (countIndex (writePixel s)) :=
    { hp with in_disp := fun hd => absurd (heng.symm.trans hd) (by decide) }
  unfold compWStep
  split
  · exact (hc.with_status _).finish
  · exact hc

/-- DISP_STEP's cell is in REGION and so in the canvas, and the next one is in REGION (R193, R196). -/
theorem dispStep_storage {s : State} (h : StorageInv s) (he : s.eng = .disp) : StorageInv (dispStep s) := by
  have hin := h.in_disp he
  obtain ⟨-, -, hx, -, -, hy⟩ := (inRegion_iff _ _ _ _).mp hin
  have hwf := restorePixel_wf h.canvas_wf
  have hbelow := restorePixel_below (Nat.lt_of_lt_of_le (cellOf_lt hx hy) h.canvas_fits) h.canvas_below
  have hp : StorageInv { s with canvas := (restorePixel s).canvas } :=
    { h with canvas_wf := hwf, canvas_below := hbelow }
  unfold dispStep
  rw [restorePixel_eq]
  dsimp only
  split
  · rename_i p hnext
    exact { hp with
      in_init := fun hi => absurd (he.symm.trans hi) (by decide)
      in_disp := fun _ => nextInRegion_mem hin hnext }
  · exact StorageInv.finish { hp with }

/-! The LZW code classes. -/

theorem initTable_storage {s : State} (h : StorageInv s) (he : s.eng = .lzw) : StorageInv (initTable s) :=
  { h with table_wf := initTable_wf h.table_wf, table_below := initTable_below (h.in_lzw he) h.table_below }

theorem emit_storage {s : State} (h : StorageInv s) (str : List Byte) : StorageInv (emit str s) := by
  have hwf := emit_wf str h.idxMem_wf
  have hbelow := emit_below str h.index_fits h.idxMem_below
  rw [emit_eq]
  exact { h with idxMem_wf := hwf, idxMem_below := hbelow }

theorem addSlot_storage {s : State} (h : StorageInv s) (q : Code) (v : Byte) : StorageInv (addSlot q v s) := by
  have hwf := addSlot_wf (q := q) (k := v) h.table_wf
  have hbelow := addSlot_below (q := q) (k := v) h.table_below
  rw [addSlot_eq]
  exact { h with table_wf := hwf, table_below := hbelow }

theorem StorageInv.setPrev {s : State} (h : StorageInv s) (c : Code) : StorageInv (setPrev c s) := { h with }

theorem finishIfComplete_storage {s : State} (h : StorageInv s) : StorageInv (finishIfComplete s) := by
  unfold finishIfComplete
  split
  · exact (h.with_status _).finish
  · exact h

theorem CodeResult.storage {s t : State} {c : Code} (hr : CodeResult s c t) (h : StorageInv s) (he : s.eng = .lzw) :
    StorageInv t := by
  cases hr with
  | clear => exact finishIfComplete_storage (initTable_storage h he)
  | fails e i0 i1 => exact h.raise e i0 i1
  | first => exact finishIfComplete_storage ((emit_storage h _).setPrev c)
  | hit => exact finishIfComplete_storage ((addSlot_storage (emit_storage h _) _ _).setPrev c)
  | kwkwk => exact finishIfComplete_storage ((addSlot_storage (emit_storage h _) _ _).setPrev c)

/-! The resets, and the whole step. -/

theorem softReset_storage {s : State} (h : StorageInv s) : StorageInv (softReset s) where
  params_legal := h.params_legal
  inMem_wf := h.inMem_wf
  idxMem_wf := rfl
  gct_wf := h.gct_wf
  lct_wf := h.lct_wf
  canvas_wf := rfl
  snap_wf := rfl
  table_wf := rfl
  inMem_below := h.inMem_below
  idxMem_below := rfl
  gct_below := h.gct_below
  lct_below := h.lct_below
  canvas_below := rfl
  snap_below := rfl
  table_below := rfl
  canvas_fits := Nat.zero_le _
  index_fits := Nat.zero_le _
  in_lzw := nofun
  in_init := nofun
  in_disp := nofun

theorem hardwareReset_storage {s : State} (h : StorageInv s) : StorageInv (hardwareReset s) :=
  { softReset_storage h with
    inMem_wf := rfl, gct_wf := rfl, lct_wf := rfl, inMem_below := rfl, gct_below := rfl, lct_below := rfl }

theorem storageInv_keptByParts : KeptByParts StorageInv where
  host _ _ _ h := { h with }
  regs _ _ h := { h with }
  statusWrite _ _ h := h.with_status _
  dropped _ _ h := h.with_status _
  gctWrite _ _ c hi _ h :=
    { h with gct_wf := Store.put_wf _ c h.gct_wf, gct_below := Store.put_below c hi h.gct_below }
  lctWrite _ _ c hi _ h :=
    { h with lct_wf := Store.put_wf _ c h.lct_wf, lct_below := Store.put_below c hi h.lct_below }
  inWrite _ _ _ _ h :=
    { h with inMem_wf := putWindowWord_wf h.inMem_wf, inMem_below := putWindowWord_below h.inMem_below }
  softReset _ h := softReset_storage h
  hardwareReset _ h := hardwareReset_storage h
  abort _ _ h := h.with_status _
  reject _ _ _ h := h.with_status _
  illegal _ op _ _ h := (h.accept op).raise _ _ _
  canvasInit _ _ h := acceptCanvasInit_storage (h.accept _)
  lzwDecode _ _ h := acceptLzw_storage (h.accept _)
  compose _ _ h := acceptCompose_storage (h.accept _)
  dispose _ _ h := acceptDispose_storage (h.accept _)
  aborted _ _ _ h := (h.with_status _).raise _ _ _
  initStep _ he _ h := initStep_storage h he
  compVStep _ he _ h := compVStep_storage h he
  compSStep _ _ _ h := compSStep_storage h
  compWStep _ he _ h := compWStep_storage h he
  dispStep _ he _ h := dispStep_storage h he
  exhausted _ _ _ _ h := h.raise _ _ _
  code s _ he _ _ h hx := (codeResult_of_exec (s := advanceCursor s) hx).storage { h with } he

end Sys2Proof.Machine

namespace Sys2Proof.Proofs

open Sys2Proof.Machine

/-- Settles O58: every part of a step keeps the bounds and the canonical form. -/
theorem storageInvariant : Obligations.StorageInvariant :=
  fun _ _ h hx => step_keeps storageInv_keptByParts h hx

end Sys2Proof.Proofs

/-! ## What each instruction and each Engine step leaves unchanged (R50 to R54, R226, R288) -/

namespace Sys2Proof.Machine

/-! The compositor's steps and the end by abort. -/

/-- `t` is `s` but for what the steps of CANVAS_INIT, COMPOSE and DISPOSE, and the end by abort, may change. -/
def OnlyCompositor (s t : State) : Prop :=
  t = { s with
    eng := t.eng, status := t.status, errInfo0 := t.errInfo0, errInfo1 := t.errInfo1, progress := t.progress,
    work := t.work, canvas := t.canvas, snap := t.snap }

/-- Whatever looks at none of these fields is the same. -/
theorem OnlyCompositor.proj {α : Type} {s t : State} (h : OnlyCompositor s t) (f : State → α) :
    f t = f { s with
      eng := t.eng, status := t.status, errInfo0 := t.errInfo0, errInfo1 := t.errInfo1, progress := t.progress,
      work := t.work, canvas := t.canvas, snap := t.snap } :=
  congrArg f h

theorem initStep_frame (s : State) : OnlyCompositor s (initStep s) := by
  unfold OnlyCompositor initStep
  split <;> rfl

theorem compVStep_frame (s : State) : OnlyCompositor s (compVStep s) := by
  unfold OnlyCompositor compVStep
  split
  · rfl
  · split <;> rfl

theorem compSStep_frame (s : State) : OnlyCompositor s (compSStep s) := rfl

theorem compWStep_frame (s : State) : OnlyCompositor s (compWStep s) := by
  unfold OnlyCompositor compWStep
  rw [writePixel_eq]
  split <;> rfl

theorem dispStep_frame (s : State) : OnlyCompositor s (dispStep s) := by
  unfold OnlyCompositor dispStep
  rw [restorePixel_eq]
  dsimp only
  split <;> rfl

theorem endByAbort_frame (s : State) : OnlyCompositor s (endByAbort s) := rfl

/-! The commands. -/

/-- `t` is `s` but for what the commands other than SOFT_RESET and LZW_DECODE may change. -/
def OnlyCommand (s t : State) : Prop :=
  t = { s with
    eng := t.eng, status := t.status, errInfo0 := t.errInfo0, errInfo1 := t.errInfo1, progress := t.progress,
    work := t.work, canvasLatch := t.canvasLatch, frameLatch := t.frameLatch, canvasDraw := t.canvasDraw,
    draws := t.draws }

theorem OnlyCommand.proj {α : Type} {s t : State} (h : OnlyCommand s t) (f : State → α) :
    f t = f { s with
      eng := t.eng, status := t.status, errInfo0 := t.errInfo0, errInfo1 := t.errInfo1, progress := t.progress,
      work := t.work, canvasLatch := t.canvasLatch, frameLatch := t.frameLatch, canvasDraw := t.canvasDraw,
      draws := t.draws } :=
  congrArg f h

/-- `t` is `s` but for what LZW_DECODE and the code classes may change; CANVAS_VALID and FRAME_PENDING stay. -/
def OnlyLzw (s t : State) : Prop :=
  t = { s with
    eng := t.eng
    status := { t.status with
      canvasValid := s.status.canvasValid, framePending := s.status.framePending }
    errInfo0 := t.errInfo0, errInfo1 := t.errInfo1, bitPos := t.bitPos, pixCount := t.pixCount,
    indexLatch := t.indexLatch, lzw := t.lzw, table := t.table, idxMem := t.idxMem }

theorem request_command {op : BitVec 4} {f : State → State} {s : State}
    (hf : OnlyCommand (accept op s) (f (accept op s))) : OnlyCommand s (request op f s) := by
  unfold request
  split
  · rfl
  · unfold OnlyCommand at hf ⊢
    rw [hf]
    rfl

theorem acceptCanvasInit_command (s : State) : OnlyCommand s (acceptCanvasInit s) := by
  unfold OnlyCommand acceptCanvasInit
  split
  · rfl
  · split <;> rfl

theorem acceptCompose_command (s : State) : OnlyCommand s (acceptCompose s) := by
  unfold OnlyCommand acceptCompose
  split
  · rfl
  · split <;> rfl

theorem acceptDispose_command (s : State) : OnlyCommand s (acceptDispose s) := by
  unfold OnlyCommand acceptDispose
  split
  · rfl
  · split <;> rfl

theorem request_illegal_command (op : BitVec 4) (w : Word) (s : State) :
    OnlyCommand s (request op (illegalCommand w) s) :=
  request_command rfl

/-- A request keeps what its acceptance rule and ACCEPT keep. -/
theorem request_proj {α : Type} (g : State → α) {op : BitVec 4} {f : State → State} {s : State}
    (hreject : g (reject op s) = g s) (haccept : g (f (accept op s)) = g s) : g (request op f s) = g s := by
  unfold request
  split
  · exact hreject
  · exact haccept

theorem acceptCanvasInit_frameLatch (s : State) : (acceptCanvasInit s).frameLatch = s.frameLatch := by
  unfold acceptCanvasInit
  split
  · rfl
  · split <;> rfl

theorem acceptCompose_canvasLatch (s : State) : (acceptCompose s).canvasLatch = s.canvasLatch := by
  unfold acceptCompose
  split
  · rfl
  · split <;> rfl

theorem acceptDispose_latches (s : State) :
    (acceptDispose s).canvasLatch = s.canvasLatch ∧ (acceptDispose s).frameLatch = s.frameLatch := by
  unfold acceptDispose
  split
  · exact ⟨rfl, rfl⟩
  · split <;> exact ⟨rfl, rfl⟩

theorem execLzwDecode_frame (s : State) : OnlyLzw s (request 0x3 acceptLzw s) := by
  unfold request
  split
  · rfl
  · unfold OnlyLzw acceptLzw
    split
    · rfl
    · split
      · rfl
      · split <;> rfl

theorem CodeFrame.onlyLzw {s t : State} (h : CodeFrame s t) : OnlyLzw s t := by
  obtain ⟨e, i0, i1, rfl⟩ | ⟨u, hu, rfl⟩ := h
  · rfl
  · unfold OnlyDecoder at hu
    rw [hu]
    unfold finishIfComplete
    split <;> rfl

/-! Who writes what. -/

open Claims (isLzw)

/-- What an instruction leaves unchanged (R50 to R54, R288). -/
def ResourcesKept (i : Instr) (s t : State) : Prop :=
  t.params = s.params ∧ t.inMem = s.inMem ∧ t.gct = s.gct ∧ t.lct = s.lct ∧ t.host = s.host
    ∧ (i ≠ .softReset →
        t.regs = s.regs ∧ t.canvas = s.canvas ∧ t.snap = s.snap
        ∧ (i ≠ .canvasInit → t.canvasLatch = s.canvasLatch)
        ∧ (i ≠ .compose → t.frameLatch = s.frameLatch)
        ∧ (isLzw i = false → t.idxMem = s.idxMem ∧ t.table = s.table ∧ t.indexLatch = s.indexLatch ∧ t.lzw = s.lzw
            ∧ t.bitPos = s.bitPos ∧ t.pixCount = s.pixCount)
        ∧ (isLzw i = true → t.status.canvasValid = s.status.canvasValid
            ∧ t.status.framePending = s.status.framePending ∧ t.progress = s.progress))

theorem OnlyLzw.resourcesKept {i : Instr} {s t : State} (h : OnlyLzw s t) (hi : isLzw i = true) :
    ResourcesKept i s t := by
  have hnot : ¬ isLzw i = false := by rw [hi]; decide
  unfold OnlyLzw at h
  rw [h]
  exact ⟨rfl, rfl, rfl, rfl, rfl, fun _ =>
    ⟨rfl, rfl, rfl, fun _ => rfl, fun _ => rfl, fun hl => absurd hl hnot, fun _ => ⟨rfl, rfl, rfl⟩⟩⟩

theorem OnlyCommand.resourcesKept {i : Instr} {s t : State} (h : OnlyCommand s t) (hi : isLzw i = false)
    (hcanvas : i ≠ .canvasInit → t.canvasLatch = s.canvasLatch)
    (hframe : i ≠ .compose → t.frameLatch = s.frameLatch) : ResourcesKept i s t := by
  have hnot : ¬ isLzw i = true := by rw [hi]; decide
  unfold OnlyCommand at h
  rw [h]
  exact ⟨rfl, rfl, rfl, rfl, rfl, fun _ =>
    ⟨rfl, rfl, rfl, hcanvas, hframe, fun _ => ⟨rfl, rfl, rfl, rfl, rfl, rfl⟩, fun hl => absurd hl hnot⟩⟩

theorem illegal_resourcesKept {i : Instr} (hi : isLzw i = false) (op : BitVec 4) (w : Word) (s : State) :
    ResourcesKept i s (request op (illegalCommand w) s) :=
  (request_illegal_command op w s).resourcesKept hi (fun _ => request_proj State.canvasLatch rfl rfl)
    (fun _ => request_proj State.frameLatch rfl rfl)

theorem abort_resourcesKept (s : State) :
    ResourcesKept .abort s
      (if busy s then { s with status := { s.status with abortReq := true } } else s) := by
  split
  · exact OnlyCommand.resourcesKept rfl rfl (fun _ => rfl) (fun _ => rfl)
  · exact OnlyCommand.resourcesKept rfl rfl (fun _ => rfl) (fun _ => rfl)

theorem exec_resourcesKept (i : Instr) (s : State) : ∃ t, exec i s = .next t ∧ ResourcesKept i s t := by
  cases i with
  | softReset => exact ⟨_, rfl, rfl, rfl, rfl, rfl, rfl, fun h => absurd rfl h⟩
  | canvasInit =>
    exact ⟨_, rfl, (request_command (acceptCanvasInit_command _)).resourcesKept rfl (fun h => absurd rfl h)
      fun _ => request_proj State.frameLatch rfl (acceptCanvasInit_frameLatch _)⟩
  | lzwDecode => exact ⟨_, rfl, (execLzwDecode_frame s).resourcesKept rfl⟩
  | compose =>
    exact ⟨_, rfl, (request_command (acceptCompose_command _)).resourcesKept rfl
      (fun _ => request_proj State.canvasLatch rfl (acceptCompose_canvasLatch _)) fun h => absurd rfl h⟩
  | dispose =>
    exact ⟨_, rfl, (request_command (acceptDispose_command _)).resourcesKept rfl
      (fun _ => request_proj State.canvasLatch rfl (acceptDispose_latches _).1)
      fun _ => request_proj State.frameLatch rfl (acceptDispose_latches _).2⟩
  | abort => exact ⟨_, rfl, abort_resourcesKept s⟩
  | illegalOp0 => exact ⟨_, rfl, illegal_resourcesKept rfl _ _ s⟩
  | illegalOp7 => exact ⟨_, rfl, illegal_resourcesKept rfl _ _ s⟩
  | illegalOp8F low => exact ⟨_, rfl, illegal_resourcesKept rfl _ _ s⟩
  | illegalRsvd op rsvd => exact ⟨_, rfl, illegal_resourcesKept rfl _ _ s⟩
  | lzwClear c => exact ⟨_, rfl, (codeFrame_clear s).onlyLzw.resourcesKept rfl⟩
  | lzwEnd c => exact ⟨_, rfl, (codeFrame_raise _ _ _ s).onlyLzw.resourcesKept rfl⟩
  | lzwFirst c => exact ⟨_, rfl, (codeFrame_first c _ s).onlyLzw.resourcesKept rfl⟩
  | lzwHit c => exact ⟨_, rfl, (codeFrame_build c _ _ _ s).onlyLzw.resourcesKept rfl⟩
  | lzwKwkwk c => exact ⟨_, rfl, (codeFrame_build c _ _ _ s).onlyLzw.resourcesKept rfl⟩
  | lzwInvalid c => exact ⟨_, rfl, (codeFrame_raise _ _ _ s).onlyLzw.resourcesKept rfl⟩

/-! What belongs to the Host. -/

/-- The parameters, the configuration registers, IN_MEM, GCT, LCT and the Host itself are the same (R52, R288). -/
def HostSideKept (s t : State) : Prop :=
  t.params = s.params ∧ t.regs = s.regs ∧ t.inMem = s.inMem ∧ t.gct = s.gct ∧ t.lct = s.lct ∧ t.host = s.host

theorem OnlyCompositor.hostSideKept {s t : State} (h : OnlyCompositor s t) : HostSideKept s t :=
  ⟨h.proj State.params, h.proj State.regs, h.proj State.inMem, h.proj State.gct, h.proj State.lct, h.proj State.host⟩

theorem CodeFrame.hostSideKept {s t : State} (h : CodeFrame s t) : HostSideKept s t := by
  have hl := h.onlyLzw
  unfold OnlyLzw at hl
  rw [hl]
  exact ⟨rfl, rfl, rfl, rfl, rfl, rfl⟩

/-- LZW_STEP with fewer bits left than WIDTH raises the error of R121. -/
theorem lzwStep_of_exhausted {s : State} (h : bitsLeft s < s.lzw.width.toNat) :
    lzwStep s = .next (raiseExhausted s) := by
  unfold lzwStep nextCode
  rw [if_pos h]

/-- LZW_STEP with a code left runs the code's class on the state NEXTCODE leaves (R141). -/
theorem lzwStep_of_code {s : State} (h : s.lzw.width.toNat ≤ bitsLeft s) :
    lzwStep s = exec (decodeCode (codeCtx s) (codeAtCursor s)) (advanceCursor s) := by
  unfold lzwStep nextCode
  rw [if_neg (Nat.not_lt.mpr h)]
  rfl

theorem lzwStep_hostSideKept (s : State) : ∃ t, lzwStep s = .next t ∧ HostSideKept s t := by
  rcases Nat.lt_or_ge (bitsLeft s) s.lzw.width.toNat with hb | hb
  · exact ⟨_, lzwStep_of_exhausted hb, (codeFrame_raise _ _ _ s).hostSideKept⟩
  · obtain ⟨t, ht, hr⟩ := exec_decodeCode (advanceCursor s) (codeAtCursor s)
    exact ⟨t, (lzwStep_of_code hb).trans ht, hr.frame.hostSideKept⟩

theorem engineStep_hostSideKept (s : State) : ∃ t, engineStep s = .next t ∧ HostSideKept s t := by
  unfold engineStep
  split
  · exact ⟨_, rfl, (endByAbort_frame s).hostSideKept⟩
  · split
    · exact ⟨s, rfl, rfl, rfl, rfl, rfl, rfl, rfl⟩
    · exact ⟨_, rfl, (initStep_frame s).hostSideKept⟩
    · exact lzwStep_hostSideKept s
    · exact ⟨_, rfl, (compVStep_frame s).hostSideKept⟩
    · exact ⟨_, rfl, (compSStep_frame s).hostSideKept⟩
    · exact ⟨_, rfl, (compWStep_frame s).hostSideKept⟩
    · exact ⟨_, rfl, (dispStep_frame s).hostSideKept⟩

theorem engineStep_of_idle {s : State} (he : s.eng = .idle) : engineStep s = .next s := by
  have hb : busy s = false := (busy_eq_false_iff s).mpr he
  simp [engineStep, hb, he]

theorem engineStep_of_lzw {s : State} (he : s.eng = .lzw) (ha : s.status.abortReq = false) :
    engineStep s = lzwStep s := by
  simp [engineStep, ha, he]

/-- With no event pending the Engine steps (log 2). -/
theorem step_of_no_event {s : State} (h : s.host.events = []) : step s = engineStep s := by
  unfold step
  rw [h]

end Sys2Proof.Machine

namespace Sys2Proof.Proofs

open Sys2Proof.Machine

/-- Settles O50: by the frame of each command and of each code class. -/
theorem resourceWriters : Obligations.ResourceWriters := exec_resourcesKept

/-- Settles O51: by the frame of the step of each ENG_STATE. -/
theorem engineAlwaysSteps : Obligations.EngineAlwaysSteps := by
  intro s
  obtain ⟨t, ht, hkept⟩ := engineStep_hostSideKept s
  refine ⟨t, ht, fun he => ?_, hkept⟩
  rw [engineStep_of_idle he] at ht
  cases ht
  rfl

end Sys2Proof.Proofs

/-! ## The invariant of a running LZW_DECODE (R56, R98, R122, R124, R145) -/

namespace Sys2Proof.Machine

/-- The capacities a legal block can have (R5). -/
theorem Params.capacities {p : Params} (h : p.legal = true) :
    p.inMemBytes ≤ 2 ^ 24 ∧ p.idxMemBytes ≤ 224 * 2 ^ 20 ∧ p.canvasPixels ≤ 2 ^ 27 := by
  simp only [Params.legal, Bool.and_eq_true, decide_eq_true_eq] at h
  omega

/-! The width schedule (R98). -/

/-- WIDTH at the start of a stream is M + 1. -/
theorem scheduledWidth_start {m : Nat} (hm : legalMinCode m = true) : scheduledWidth m (2 ^ m + 2) = m + 1 := by
  have hpow := (pow_le_of_legalMinCode hm).1
  simp only [legalMinCode, Bool.and_eq_true, decide_eq_true_eq] at hm
  have hclog : Nat.clog 2 (2 ^ m + 2 + 1) ≤ m + 1 := Nat.clog_le_of_le_pow (by rw [Nat.pow_succ]; omega)
  unfold scheduledWidth
  omega

/-- While the table is not full, WIDTH is the least w with NEXT_FREE < 2^w. -/
theorem scheduledWidth_eq_clog {m nextFree : Nat} (hlow : 2 ^ m + 2 ≤ nextFree) (hhigh : nextFree < 4096) :
    scheduledWidth m nextFree = Nat.clog 2 (nextFree + 1) := by
  have hle : Nat.clog 2 (nextFree + 1) ≤ 12 := Nat.clog_le_of_le_pow (by omega)
  have hlt : m < Nat.clog 2 (nextFree + 1) := (Nat.lt_clog_iff_pow_lt (by decide)).mpr (by omega)
  unfold scheduledWidth
  omega

/-- Building a slot moves the schedule on by one exactly when NEXT_FREE reaches 2^WIDTH below 12 (R138). -/
theorem scheduledWidth_succ {m nextFree : Nat} (hlow : 2 ^ m + 2 ≤ nextFree) (hhigh : nextFree < 4096) :
    scheduledWidth m (nextFree + 1) =
      if nextFree + 1 = 2 ^ scheduledWidth m nextFree ∧ scheduledWidth m nextFree < 12
      then scheduledWidth m nextFree + 1 else scheduledWidth m nextFree := by
  have hle : Nat.clog 2 (nextFree + 1) ≤ 12 := Nat.clog_le_of_le_pow (by omega)
  have hlt : m < Nat.clog 2 (nextFree + 1) := (Nat.lt_clog_iff_pow_lt (by decide)).mpr (by omega)
  have hpow : nextFree + 1 ≤ 2 ^ Nat.clog 2 (nextFree + 1) := Nat.le_pow_clog (by decide) _
  have hmono : Nat.clog 2 (nextFree + 1) ≤ Nat.clog 2 (nextFree + 1 + 1) := Nat.clog_mono_right 2 (Nat.le_succ _)
  rw [scheduledWidth_eq_clog hlow hhigh, scheduledWidth]
  generalize Nat.clog 2 (nextFree + 1) = w at hle hlt hpow hmono
  by_cases hreached : nextFree + 1 = 2 ^ w
  · have hsucc : Nat.clog 2 (nextFree + 1 + 1) = w + 1 :=
      Nat.le_antisymm (Nat.clog_le_of_le_pow (by rw [Nat.pow_succ]; omega))
        ((Nat.lt_clog_iff_pow_lt (by decide)).mpr (by omega))
    rw [hsucc]
    split <;> omega
  · have hsame : Nat.clog 2 (nextFree + 1 + 1) ≤ w := Nat.clog_le_of_le_pow (by omega)
    rw [if_neg fun h => hreached h.1]
    omega

theorem grownWidth_toNat (width : BitVec 4) (n : Nat) :
    (grownWidth width n).toNat = if n = 2 ^ width.toNat ∧ width.toNat < 12 then width.toNat + 1 else width.toNat := by
  unfold grownWidth
  split
  · rw [BitVec.toNat_add, show (1 : BitVec 4).toNat = 1 from rfl]
    omega
  · rfl

/-! What the running decode's bounds give. -/

theorem LzwRunning.outLength_lt {s : State} (hs : LzwRunning s) : outLength s < 2 ^ 32 := by
  have hcap := (Params.capacities hs.params_legal).2.1
  have hfits := hs.output_fits
  omega

/-- NEXTCODE keeps the cursor inside the stream (R124). -/
theorem LzwRunning.advanceCursor {s : State} (hs : LzwRunning s) (hbits : s.lzw.width.toNat ≤ bitsLeft s) :
    LzwRunning (advanceCursor s) := by
  have hcap := (Params.capacities hs.params_legal).1
  have hstream := hs.stream_inside
  have hcursor := hs.cursor_inside
  unfold bitsLeft at hbits
  have hpos := bitPos_advanceCursor s (by omega)
  exact { hs with cursor_inside := by rw [hpos]; exact show _ ≤ 8 * s.indexLatch.llen.toNat by omega }

/-! Each operation of a code class keeps the decode running (R132 to R138). -/

/-- INIT_TABLE makes any decode that is inside its stream and its output a running one (R132). -/
theorem initTable_running {s : State} (hp : s.params.legal = true)
    (hm : legalMinCode s.indexLatch.lm.toNat = true)
    (hstream : s.indexLatch.lbase.toNat + s.indexLatch.llen.toNat ≤ s.params.inMemBytes)
    (hcursor : s.bitPos.toNat ≤ 8 * s.indexLatch.llen.toNat) (hfits : outLength s ≤ s.params.idxMemBytes)
    (hopen : s.pixCount.toNat < outLength s)
    (hsmall : ∀ n, n < s.pixCount.toNat → (idxByte s n).toNat < 2 ^ s.indexLatch.lm.toNat) :
    LzwRunning (initTable s) where
  params_legal := hp
  min_code := hm
  stream_inside := hstream
  cursor_inside := hcursor
  output_fits := hfits
  output_open := hopen
  free_low := (nextFree_initTable hm).ge
  free_high := by
    have hpow := (pow_le_of_legalMinCode hm).2
    rw [nextFree_initTable hm]
    omega
  free_first _ := nextFree_initTable hm
  width_scheduled := by
    rw [width_initTable hm, nextFree_initTable hm]
    exact (scheduledWidth_start hm).symm
  prev_initialised := nofun
  roots k hk := by
    rw [slotAt_initTable, if_pos (show k < 2 ^ s.indexLatch.lm.toNat from hk)]
    exact ⟨rfl, rfl⟩
  built k hlow hhigh := by
    rw [nextFree_initTable hm] at hhigh
    exact absurd hhigh (Nat.not_lt.mpr hlow)
  indices_small := hsmall

theorem LzwRunning.initTable {s : State} (hs : LzwRunning s) : LzwRunning (initTable s) :=
  initTable_running hs.params_legal hs.min_code hs.stream_inside hs.cursor_inside hs.output_fits hs.output_open
    hs.indices_small

/-- EMIT of root indices keeps every stored index below 2^M, and the output open unless it is complete (R142, R145). -/
theorem LzwRunning.emit {s : State} (hs : LzwRunning s) {str : List Byte}
    (hstr : ∀ v ∈ str, v.toNat < 2 ^ s.indexLatch.lm.toNat)
    (hopen : (emit str s).pixCount.toNat ≠ outLength s) : LzwRunning (emit str s) := by
  have hcount := pixCount_emit str hs.outLength_lt hs.output_open.le
  have hbyte := idxByte_emit str hs.outLength_lt hs.output_open.le
  have hsmall : ∀ n, n < (Machine.emit str s).pixCount.toNat →
      (idxByte (Machine.emit str s) n).toNat < 2 ^ s.indexLatch.lm.toNat := by
    intro n hn
    rw [hbyte]
    split
    · rename_i hnew
      have hlt : n - s.pixCount.toNat < str.length := by omega
      rw [List.getD_eq_getElem _ _ hlt]
      exact hstr _ (List.getElem_mem hlt)
    · rename_i hold
      exact hs.indices_small n (by omega)
  have hlt : (Machine.emit str s).pixCount.toNat < outLength s := by omega
  rw [emit_eq]
  exact { hs with output_open := hlt, indices_small := hsmall }

/-- ADD leaves the slots below NEXT_FREE as they are. -/
theorem slotAt_addSlot_of_lt (q : Code) (v : Byte) {s : State} {k : Nat} (hk : k < s.lzw.nextFree.toNat) :
    slotAt (addSlot q v s) k = slotAt s k := by
  rw [slotAt_addSlot, if_neg (by omega)]

/-- The slot that ADD builds from an initialised PREFIX and a root SUFFIX has the shape of R56, as the others do. -/
theorem LzwRunning.built_addSlot {s : State} (hs : LzwRunning s) {q : Code} {v : Byte}
    (hfull : s.lzw.nextFree.toNat < 4096) (hq : initialised s q.toNat) (hv : v.toNat < 2 ^ s.indexLatch.lm.toNat)
    {k : Nat} (hk : 2 ^ s.indexLatch.lm.toNat + 2 ≤ k) (hkn : k < s.lzw.nextFree.toNat + 1) :
    ∃ q', (slotAt (addSlot q v s) k).prefixCode = some q' ∧ q'.toNat < k
      ∧ q'.toNat ≠ 2 ^ s.indexLatch.lm.toNat ∧ q'.toNat ≠ 2 ^ s.indexLatch.lm.toNat + 1
      ∧ (slotAt (addSlot q v s) k).suffixIdx.toNat < 2 ^ s.indexLatch.lm.toNat := by
  rcases Nat.lt_succ_iff_lt_or_eq.mp hkn with hlt | rfl
  · rw [slotAt_addSlot_of_lt q v hlt]
    exact hs.built k hk hlt
  · have hqlt := hs.initialised_lt hq
    rw [slotAt_addSlot, if_pos ⟨hfull, rfl⟩]
    unfold initialised at hq
    exact ⟨q, rfl, hqlt, by omega, by omega, hv⟩

theorem addSlot_full (q : Code) (v : Byte) {s : State} (h : ¬ s.lzw.nextFree.toNat < 4096) : addSlot q v s = s := by
  unfold addSlot
  exact if_neg h

/-- A slot built from an initialised PREFIX and a root SUFFIX keeps the table's shape and the schedule (R56, R138). -/
theorem LzwRunning.addSlot {s : State} (hs : LzwRunning s) {q : Code} {v : Byte} (hprev : s.lzw.prevValid = true)
    (hq : initialised s q.toNat) (hv : v.toNat < 2 ^ s.indexLatch.lm.toNat) : LzwRunning (addSlot q v s) := by
  by_cases hfull : s.lzw.nextFree.toNat < 4096
  case neg => rwa [addSlot_full q v hfull]
  have hlow := hs.free_low
  have hnf : (Machine.addSlot q v s).lzw.nextFree.toNat = s.lzw.nextFree.toNat + 1 := by
    rw [nextFree_addSlot, if_pos hfull]
  have hwidth : (Machine.addSlot q v s).lzw.width.toNat =
      scheduledWidth s.indexLatch.lm.toNat (Machine.addSlot q v s).lzw.nextFree.toNat := by
    rw [width_addSlot, if_pos hfull, grownWidth_toNat, hs.width_scheduled, hnf, scheduledWidth_succ hlow hfull]
  have hroots : ∀ k, k < 2 ^ s.indexLatch.lm.toNat → (slotAt (Machine.addSlot q v s) k).prefixCode = none
      ∧ (slotAt (Machine.addSlot q v s) k).suffixIdx = BitVec.ofNat 8 k := by
    intro k hk
    rw [slotAt_addSlot_of_lt q v (by omega)]
    exact hs.roots k hk
  have hprevKept : s.lzw.prev.toNat < 2 ^ s.indexLatch.lm.toNat ∨ (2 ^ s.indexLatch.lm.toNat + 2 ≤ s.lzw.prev.toNat
      ∧ s.lzw.prev.toNat < (Machine.addSlot q v s).lzw.nextFree.toNat) := by
    have hold := hs.prev_initialised hprev
    unfold initialised at hold
    omega
  have hbuilt := fun k hk hkn => hs.built_addSlot hfull hq hv (k := k) hk (hnf ▸ hkn)
  have hlow' : 2 ^ s.indexLatch.lm.toNat + 2 ≤ (Machine.addSlot q v s).lzw.nextFree.toNat := by omega
  have hhigh' : (Machine.addSlot q v s).lzw.nextFree.toNat ≤ 4096 := by omega
  rw [addSlot_eq]
  exact { hs with
    free_low := hlow'
    free_high := hhigh'
    free_first := fun hfirst => absurd (hprev.symm.trans hfirst) (by decide)
    width_scheduled := hwidth
    prev_initialised := fun _ => hprevKept
    roots := hroots
    built := hbuilt }

theorem LzwRunning.setPrev {s : State} (hs : LzwRunning s) {c : Code} (hc : initialised s c.toNat) :
    LzwRunning (setPrev c s) :=
  { hs with free_first := nofun, prev_initialised := fun _ => hc }

/-! The code classes. -/

/-- What FIRST, HIT and KWKWK end with: either the output is complete, or the decode runs on. -/
theorem finishIfComplete_lzw {s : State} (hp : s.params.legal = true)
    (hrun : s.pixCount.toNat ≠ outLength s → LzwRunning s) : LzwInv (finishIfComplete s) := by
  unfold finishIfComplete
  split
  · exact ⟨hp, nofun⟩
  · rename_i hopen
    exact ⟨hp, fun _ => hrun hopen⟩

/-- A root, read as an index. -/
theorem root_index_small {c : Code} {m : Nat} (hc : c.toNat < 2 ^ m) : (c.setWidth 8 : Byte).toNat < 2 ^ m := by
  rw [BitVec.toNat_setWidth]
  exact Nat.lt_of_le_of_lt (Nat.mod_le _ _) hc

/-- HIT and KWKWK: a string of root indices is emitted, a slot is built on PREV, and `c` becomes PREV. -/
theorem build_lzw {s : State} (hs : LzwRunning s) {c : Code} {str : List Byte} {v : Byte}
    (hprev : s.lzw.prevValid = true) (hstr : ∀ b ∈ str, b.toNat < 2 ^ s.indexLatch.lm.toNat)
    (hv : v.toNat < 2 ^ s.indexLatch.lm.toNat)
    (hc : initialised (addSlot s.lzw.prev v (emit str s)) c.toNat) :
    LzwInv (finishIfComplete (setPrev c (addSlot s.lzw.prev v (emit str s)))) := by
  have hframe := (onlyDecoder_emit str s).addSlot s.lzw.prev v
  have hcount : (addSlot s.lzw.prev v (emit str s)).pixCount = (emit str s).pixCount := by rw [addSlot_eq]
  have hlen : outLength (addSlot s.lzw.prev v (emit str s)) = outLength s := hframe.proj outLength
  have hlzw : (emit str s).lzw = s.lzw := by rw [emit_eq]
  have hlatch : (emit str s).indexLatch = s.indexLatch := (onlyDecoder_emit str s).proj State.indexLatch
  have hprevInit : initialised (emit str s) s.lzw.prev.toNat := by
    unfold initialised
    rw [hlzw, hlatch]
    exact hs.prev_initialised hprev
  refine finishIfComplete_lzw ?_ fun hopen => ?_
  · exact (hframe.proj fun u => u.params.legal).trans hs.params_legal
  · have hopen' : (emit str s).pixCount.toNat ≠ outLength s := by rwa [← hcount, ← hlen]
    have hrun := hs.emit hstr hopen'
    exact (hrun.addSlot (by rw [hlzw]; exact hprev) hprevInit (by rw [hlatch]; exact hv)).setPrev hc

/-- What is initialised stays so under EMIT and ADD; and NEXT_FREE is initialised after ADD. -/
theorem initialised_build {s : State} {q : Code} {v : Byte} {str : List Byte} {k : Nat} (hk : k < 4096)
    (h : initialised s k ∨ (2 ^ s.indexLatch.lm.toNat + 2 ≤ k ∧ k = s.lzw.nextFree.toNat)) :
    initialised (addSlot q v (emit str s)) k := by
  have hframe := (onlyDecoder_emit str s).addSlot q v
  have hlatch : (addSlot q v (emit str s)).indexLatch = s.indexLatch := hframe.proj State.indexLatch
  have hlzw : (emit str s).lzw = s.lzw := by rw [emit_eq]
  have hnf := nextFree_addSlot q v (emit str s)
  rw [hlzw] at hnf
  unfold initialised at h ⊢
  rw [hlatch, hnf]
  split <;> omega

theorem CodeResult.lzw {s t : State} {c : Code} (hr : CodeResult s c t) (hs : LzwRunning s) : LzwInv t := by
  cases hr with
  | clear => exact finishIfComplete_lzw hs.params_legal fun _ => hs.initTable
  | fails e i0 i1 => exact ⟨hs.params_legal, nofun⟩
  | first hroot =>
    have hframe := onlyDecoder_emit [c.setWidth 8] s
    refine finishIfComplete_lzw ((hframe.proj fun u => u.params.legal).trans hs.params_legal) fun hopen => ?_
    have hrun := hs.emit (by simpa using root_index_small hroot) ((hframe.proj outLength) ▸ hopen)
    exact hrun.setPrev (.inl (by rw [hframe.proj State.indexLatch]; exact hroot))
  | hit hprev hknown =>
    exact build_lzw hs hprev (hs.strOf_small c hknown) (hs.firstOf_strOf_small c hknown)
      (initialised_build c.isLt (.inl hknown))
  | kwkwk hprev hlow hnext =>
    have hsmall := hs.strOf_small _ (hs.prev_initialised hprev)
    have hfirst := hs.firstOf_strOf_small _ (hs.prev_initialised hprev)
    refine build_lzw hs hprev ?_ hfirst (initialised_build c.isLt (.inr ⟨hlow, hnext⟩))
    simp only [List.mem_append, List.mem_singleton]
    rintro b (hb | rfl)
    · exact hsmall b hb
    · exact hfirst

/-! Acceptance, and the other parts of a step. -/

/-- With the Engine out of LZW only the parameters are left to keep. -/
theorem LzwInv.outside {s t : State} (h : LzwInv s) (hp : t.params = s.params) (he : t.eng ≠ .lzw) : LzwInv t :=
  ⟨hp ▸ h.1, fun hl => absurd hl he⟩

theorem LzwInv.with_status {s : State} (h : LzwInv s) (st : Status) : LzwInv { s with status := st } :=
  ⟨h.1, fun he => { h.2 he with }⟩

/-- What LZW_DECODE latches once its checks have passed is a running decode (R130). -/
theorem latchStream_running {s : State} (hp : s.params.legal = true)
    (hsize : sizeLegal s.params.maxDim s.params.idxMemBytes (frameW s.regs).toNat (frameH s.regs).toNat = true)
    (hmin : legalMinCode s.regs.lzwMin.toNat = true)
    (hrange : s.regs.inBase.toNat + s.regs.inLen.toNat ≤ s.params.inMemBytes) :
    LzwRunning (initTable (latchStream (beginLzw s))) := by
  obtain ⟨hw, hh, -, -, harea⟩ := sizeLegal_iff.mp hsize
  exact initTable_running hp hmin hrange (Nat.zero_le _) harea (Nat.mul_pos hw hh)
    fun n hn => absurd hn (Nat.not_lt_zero n)

theorem acceptLzw_lzw {s : State} (h : LzwInv s) : LzwInv (acceptLzw s) := by
  unfold acceptLzw
  split
  · exact h.outside rfl nofun
  · rename_i hsize
    split
    · exact h.outside rfl nofun
    · rename_i hmin
      split
      · exact h.outside rfl nofun
      · rename_i hrange
        have hrun := latchStream_running h.1 (by simpa using hsize) (by simpa using hmin) (Nat.not_lt.mp hrange)
        exact ⟨h.1, fun _ => { hrun with }⟩

/-! No other acceptance and no other Engine step leads into LZW. -/

theorem acceptCanvasInit_not_lzw (s : State) : (acceptCanvasInit s).eng ≠ .lzw := by
  unfold acceptCanvasInit
  split
  · nofun
  · split <;> nofun

theorem acceptCompose_not_lzw (s : State) : (acceptCompose s).eng ≠ .lzw := by
  unfold acceptCompose
  split
  · nofun
  · split <;> nofun

theorem acceptDispose_not_lzw (s : State) : (acceptDispose s).eng ≠ .lzw := by
  unfold acceptDispose
  split
  · nofun
  · split <;> nofun

theorem initStep_not_lzw {s : State} (he : s.eng = .init) : (initStep s).eng ≠ .lzw := by
  unfold initStep
  split
  · nofun
  · simp [he]

theorem compVStep_not_lzw {s : State} (he : s.eng = .compV) : (compVStep s).eng ≠ .lzw := by
  unfold compVStep
  split
  · nofun
  · split
    · nofun
    · simp [he]

theorem compWStep_not_lzw {s : State} (he : s.eng = .compW) : (compWStep s).eng ≠ .lzw := by
  unfold compWStep
  rw [writePixel_eq]
  split
  · nofun
  · simp [he]

theorem dispStep_not_lzw {s : State} (he : s.eng = .disp) : (dispStep s).eng ≠ .lzw := by
  unfold dispStep
  rw [restorePixel_eq]
  dsimp only
  split
  · simp [he]
  · nofun

theorem not_lzw_of_idle {s : State} (hb : busy s = false) : s.eng ≠ .lzw := by
  rw [(busy_eq_false_iff s).mp hb]
  nofun

theorem lzwInv_keptByParts : KeptByParts LzwInv where
  host _ _ _ h := ⟨h.1, fun he => { h.2 he with }⟩
  regs _ _ h := ⟨h.1, fun he => { h.2 he with }⟩
  statusWrite _ _ h := h.with_status _
  dropped _ _ h := h.with_status _
  gctWrite _ _ _ _ hb h := h.outside rfl (not_lzw_of_idle hb)
  lctWrite _ _ _ _ hb h := h.outside rfl (not_lzw_of_idle hb)
  inWrite _ _ _ hb h := h.outside rfl (not_lzw_of_idle hb)
  softReset _ h := h.outside rfl nofun
  hardwareReset _ h := h.outside rfl nofun
  abort _ _ h := h.with_status _
  reject _ _ _ h := h.with_status _
  illegal _ _ _ _ h := h.outside rfl nofun
  canvasInit _ _ h :=
    h.outside ((acceptCanvasInit_command _).proj State.params) (acceptCanvasInit_not_lzw _)
  lzwDecode s hb h := acceptLzw_lzw (s := accept 0x3 s) (h.outside rfl (not_lzw_of_idle hb))
  compose _ _ h :=
    h.outside ((acceptCompose_command _).proj State.params) (acceptCompose_not_lzw _)
  dispose _ _ h :=
    h.outside ((acceptDispose_command _).proj State.params) (acceptDispose_not_lzw _)
  aborted _ _ _ h := h.outside rfl nofun
  initStep s he _ h := h.outside ((initStep_frame s).proj State.params) (initStep_not_lzw he)
  compVStep s he _ h := h.outside ((compVStep_frame s).proj State.params) (compVStep_not_lzw he)
  compSStep _ _ _ h := h.outside rfl nofun
  compWStep s he _ h := h.outside ((compWStep_frame s).proj State.params) (compWStep_not_lzw he)
  dispStep s he _ h := h.outside ((dispStep_frame s).proj State.params) (dispStep_not_lzw he)
  exhausted _ _ _ _ h := h.outside rfl nofun
  code s _ he _ hbits h hx :=
    (codeResult_of_exec (s := advanceCursor s) hx).lzw ((h.2 he).advanceCursor hbits)

end Sys2Proof.Machine

namespace Sys2Proof.Proofs

open Sys2Proof.Machine

/-- Settles O59: every part of a step keeps the invariant; the code classes are the parts that work on the table. -/
theorem lzwInvariant : Obligations.LzwInvariant :=
  fun _ _ h hx => step_keeps lzwInv_keptByParts h hx

end Sys2Proof.Proofs

/-! ## The compositor's counters and validated indices (R46, R172, R178, R182, R193) -/

namespace Sys2Proof.Machine

/-- The part of the invariant that does not depend on ENG_STATE. -/
structure CompositorBounds (s : State) : Prop where
  params_legal : s.params.legal = true
  canvas_fits : canvasArea s ≤ s.params.canvasPixels
  index_fits : outLength s ≤ s.params.idxMemBytes
  frame_fits : frameArea s.frameLatch ≤ s.params.idxMemBytes
  index_valid : s.status.idxValid = true → 0 < outLength s
  disposal_legal : s.frameLatch.disp.toNat ≤ 3

/-- The number of a position of REGION in raster order (R193). -/
def regionIndex (c : CanvasLatch) (f : FrameLatch) (x y : Nat) : Nat :=
  (y - f.top.toNat) * (regionRight c f - f.left.toNat) + (x - f.left.toNat)

/-- The part of the invariant that a value of ENG_STATE asks for. -/
def StageInv (eng : EngState) (s : State) : Prop :=
  match eng with
  | .idle => True
  | .lzw => 0 < outLength s
  | .init => s.work.n < canvasArea s ∧ s.progress.toNat = s.work.n
  | .compV => s.work.s < frameArea s.frameLatch ∧ s.progress.toNat = s.work.s
    ∧ ∀ n, n < s.work.s → inTable s.frameLatch (idxByte s n) = true
  | .compS => 0 < frameArea s.frameLatch ∧ s.progress.toNat = frameArea s.frameLatch
    ∧ ∀ n, n < frameArea s.frameLatch → inTable s.frameLatch (idxByte s n) = true
  | .compW => s.work.s < frameArea s.frameLatch ∧ s.progress.toNat = frameArea s.frameLatch + s.work.s
    ∧ ∀ n, n < frameArea s.frameLatch → inTable s.frameLatch (idxByte s n) = true
  | .disp => 2 ≤ s.frameLatch.disp.toNat ∧ inRegion s.canvasLatch s.frameLatch s.work.x s.work.y = true
    ∧ s.progress.toNat = regionIndex s.canvasLatch s.frameLatch s.work.x s.work.y

theorem CompositorInv.bounds {s : State} (h : CompositorInv s) : CompositorBounds s := { h with }

theorem CompositorInv.stage {s : State} (h : CompositorInv s) {e : EngState} (he : s.eng = e) : StageInv e s := by
  cases e with
  | idle => trivial
  | init => exact h.in_init he
  | lzw => exact h.index_open he
  | compV => exact h.in_compV he
  | compS => exact h.in_compS he
  | compW => exact h.in_compW he
  | disp => exact h.in_disp he

theorem compositorInv_of_stage {s : State} (e : EngState) (b : CompositorBounds s) (he : s.eng = e)
    (hs : StageInv e s) : CompositorInv s := by
  subst he
  exact { b with
    index_open := fun he => by rw [he] at hs; exact hs
    in_init := fun he => by rw [he] at hs; exact hs
    in_compV := fun he => by rw [he] at hs; exact hs
    in_compS := fun he => by rw [he] at hs; exact hs
    in_compW := fun he => by rw [he] at hs; exact hs
    in_disp := fun he => by rw [he] at hs; exact hs }

/-! The ends of an operation. -/

theorem CompositorBounds.raise {s : State} (b : CompositorBounds s) (e : ErrorCode) (i0 i1 : Word) :
    CompositorInv (raise e i0 i1 s) :=
  compositorInv_of_stage .idle { b with } rfl trivial

theorem CompositorBounds.finish {s : State} (b : CompositorBounds s) : CompositorInv (finish s) :=
  compositorInv_of_stage .idle { b with } rfl trivial

/-! The counters do not overflow. -/

theorem toNat_succ {p : Word} {n : Nat} (hp : p.toNat = n) (hn : n + 1 < 2 ^ 32) : (p + 1).toNat = n + 1 := by
  rw [BitVec.toNat_add, hp, show (1 : Word).toNat = 1 from rfl, Nat.mod_eq_of_lt hn]

theorem CompositorBounds.areas_le {s : State} (b : CompositorBounds s) :
    canvasArea s ≤ 2 ^ 27 ∧ frameArea s.frameLatch ≤ 224 * 2 ^ 20 := by
  obtain ⟨-, hidx, hcanvas⟩ := Params.capacities b.params_legal
  exact ⟨b.canvas_fits.trans hcanvas, b.frame_fits.trans hidx⟩

/-- A position of REGION has a number below CW × CH. -/
theorem regionIndex_lt {s : State} {x y : Nat} (h : inRegion s.canvasLatch s.frameLatch x y = true) :
    regionIndex s.canvasLatch s.frameLatch x y < canvasArea s := by
  obtain ⟨-, -, hx, -, -, hy⟩ := (inRegion_iff _ _ _ _).mp h
  have hwidth : regionRight s.canvasLatch s.frameLatch ≤ s.canvasLatch.cw.toNat := Nat.min_le_right _ _
  have hrow : (y - s.frameLatch.top.toNat) * (regionRight s.canvasLatch s.frameLatch - s.frameLatch.left.toNat)
      ≤ y * s.canvasLatch.cw.toNat := Nat.mul_le_mul (Nat.sub_le _ _) (by omega)
  have hcell := cellOf_lt hx hy
  unfold cellOf at hcell
  unfold regionIndex
  omega

/-- The walk takes the positions of REGION in the order of their numbers (R193). -/
theorem regionIndex_next {c : CanvasLatch} {f : FrameLatch} {x y : Nat} {p : Nat × Nat}
    (h : inRegion c f x y = true) (hn : nextInRegion c f x y = some p) :
    regionIndex c f p.1 p.2 = regionIndex c f x y + 1 := by
  simp only [inRegion, Bool.and_eq_true, decide_eq_true_eq] at h
  unfold regionIndex
  unfold nextInRegion at hn
  split at hn
  · cases hn
    dsimp only
    omega
  · split at hn
    · cases hn
      dsimp only
      rw [show y + 1 - f.top.toNat = y - f.top.toNat + 1 by omega, Nat.succ_mul]
      omega
    · cases hn

/-! Acceptance. -/

theorem acceptCanvasInit_compositor {s : State} (b : CompositorBounds s) : CompositorInv (acceptCanvasInit s) := by
  have hb : CompositorBounds (beginCanvasInit s) := { b with }
  unfold acceptCanvasInit
  split
  · exact hb.raise _ _ _
  · rename_i hsize
    split
    · exact hb.raise _ _ _
    · obtain ⟨hw, hh, -, -, harea⟩ := sizeLegal_iff.mp (by simpa using hsize)
      exact compositorInv_of_stage .init { hb with canvas_fits := harea } rfl ⟨Nat.mul_pos hw hh, rfl⟩

theorem acceptLzw_compositor {s : State} (b : CompositorBounds s) : CompositorInv (acceptLzw s) := by
  have hb : CompositorBounds (beginLzw s) := { b with index_valid := nofun }
  unfold acceptLzw
  split
  · exact hb.raise _ _ _
  · rename_i hsize
    split
    · exact hb.raise _ _ _
    · split
      · exact hb.raise _ _ _
      · obtain ⟨hw, hh, -, -, harea⟩ := sizeLegal_iff.mp (by simpa using hsize)
        exact compositorInv_of_stage .lzw { hb with index_fits := harea, index_valid := nofun } rfl (Nat.mul_pos hw hh)

/-- The frame that COMPOSE latches is the one LZW_DECODE left, and its disposal passed the check (R175). -/
theorem acceptCompose_compositor {s : State} (b : CompositorBounds s) : CompositorInv (acceptCompose s) := by
  unfold acceptCompose
  split
  · exact b.raise _ _ _
  · rename_i hflags
    simp only [not_or, Bool.not_eq_false] at hflags
    obtain ⟨-, hidx, -⟩ := hflags
    split
    · exact b.raise _ _ _
    · rename_i hdisp
      exact compositorInv_of_stage .compV
        { b with frame_fits := b.index_fits, disposal_legal := Nat.not_lt.mp hdisp } rfl
        ⟨b.index_valid hidx, rfl, fun n hn => absurd hn (Nat.not_lt_zero n)⟩

theorem acceptDispose_compositor {s : State} (b : CompositorBounds s) : CompositorInv (acceptDispose s) := by
  have hb : CompositorBounds (beginDispose s) := { b with }
  unfold acceptDispose
  split
  · exact b.raise _ _ _
  · split
    · exact hb.finish
    · rename_i hwalk
      simp only [not_or, Bool.not_eq_true, Nat.not_le] at hwalk
      refine compositorInv_of_stage .disp { hb with } rfl ⟨hwalk.1, inRegion_start hwalk.2, ?_⟩
      simp [regionIndex]

/-! The Engine's steps. -/

theorem initStep_compositor {s : State} (h : CompositorInv s) (he : s.eng = .init) : CompositorInv (initStep s) := by
  have b := h.bounds
  obtain ⟨hn, hp⟩ := h.stage he
  have harea := b.areas_le.1
  unfold initStep
  split
  · exact CompositorBounds.finish { b with }
  · exact compositorInv_of_stage .init { b with } he
      ⟨show s.work.n + 1 < canvasArea s by omega, toNat_succ hp (by omega)⟩

/-- COMP_V_STEP extends the validated indices by the one it has found in the table (R178). -/
theorem compVStep_compositor {s : State} (h : CompositorInv s) (he : s.eng = .compV) :
    CompositorInv (compVStep s) := by
  have b := h.bounds
  obtain ⟨hs, hp, hvalid⟩ := h.stage he
  have harea := b.areas_le.2
  have hsucc : (s.progress + 1).toNat = s.work.s + 1 := toNat_succ hp (by omega)
  unfold compVStep
  split
  · exact b.raise _ _ _
  · rename_i hin
    have hvalid' : ∀ n, n < s.work.s + 1 → inTable s.frameLatch (idxByte s n) = true := by
      intro n hn
      rcases Nat.lt_succ_iff_lt_or_eq.mp hn with hlt | rfl
      · exact hvalid n hlt
      · simpa using hin
    split
    · rename_i hlast
      exact compositorInv_of_stage .compS { b with } rfl
        ⟨Nat.zero_lt_of_lt hs, hsucc.trans hlast, fun n hn => hvalid' n (hlast ▸ hn)⟩
    · exact compositorInv_of_stage .compV { b with } he
        ⟨show s.work.s + 1 < frameArea s.frameLatch by omega, hsucc, hvalid'⟩

theorem compSStep_compositor {s : State} (h : CompositorInv s) (he : s.eng = .compS) : CompositorInv (compSStep s) :=
  compositorInv_of_stage .compW { h.bounds with } rfl (h.stage he)

theorem compWStep_compositor {s : State} (h : CompositorInv s) (he : s.eng = .compW) :
    CompositorInv (compWStep s) := by
  have b := h.bounds
  obtain ⟨hs, hp, hvalid⟩ := h.stage he
  have harea := b.areas_le.2
  have hsucc : (s.progress + 1).toNat = frameArea s.frameLatch + s.work.s + 1 := toNat_succ hp (by omega)
  unfold compWStep
  rw [writePixel_eq]
  split
  · exact CompositorBounds.finish { b with }
  · exact compositorInv_of_stage .compW { b with } he
      ⟨show s.work.s + 1 < frameArea s.frameLatch by omega, hsucc, hvalid⟩

theorem dispStep_compositor {s : State} (h : CompositorInv s) (he : s.eng = .disp) : CompositorInv (dispStep s) := by
  have b := h.bounds
  obtain ⟨hdisp, hin, hp⟩ := h.stage he
  have harea := b.areas_le.1
  have hlt := regionIndex_lt hin
  unfold dispStep
  rw [restorePixel_eq]
  dsimp only
  split
  · rename_i p hnext
    exact compositorInv_of_stage .disp { b with } he
      ⟨hdisp, nextInRegion_mem hin hnext, (toNat_succ hp (by omega)).trans (regionIndex_next hin hnext).symm⟩
  · exact CompositorBounds.finish { b with }

/-- A code class touches no counter of the compositor; where it completes the output, that output is not empty. -/
theorem CodeFrame.compositor {s t : State} (hf : CodeFrame s t) (h : CompositorInv s) (he : s.eng = .lzw) :
    CompositorInv t := by
  have b := h.bounds
  have hopen : 0 < outLength s := h.stage he
  obtain ⟨e, i0, i1, rfl⟩ | ⟨u, hu, rfl⟩ := hf
  · exact b.raise e i0 i1
  · unfold OnlyDecoder at hu
    rw [hu]
    unfold finishIfComplete
    split
    · exact CompositorBounds.finish { b with index_valid := fun _ => hopen }
    · exact compositorInv_of_stage .lzw { b with } he hopen

/-! The other parts of a step. -/

theorem CompositorInv.with_status {s : State} (h : CompositorInv s) {st : Status}
    (hv : st.idxValid = s.status.idxValid) : CompositorInv { s with status := st } :=
  { h with index_valid := fun hi => h.index_valid (hv ▸ hi) }

theorem softReset_compositor {s : State} (h : CompositorInv s) : CompositorInv (softReset s) :=
  compositorInv_of_stage .idle
    { params_legal := h.params_legal
      canvas_fits := Nat.zero_le _
      index_fits := Nat.zero_le _
      frame_fits := Nat.zero_le _
      index_valid := nofun
      disposal_legal := Nat.zero_le _ } rfl trivial

theorem compositorInv_keptByParts : KeptByParts CompositorInv where
  host _ _ _ h := { h with }
  regs _ _ h := { h with }
  statusWrite _ _ h := h.with_status rfl
  dropped _ _ h := h.with_status rfl
  gctWrite _ _ _ _ _ h := { h with }
  lctWrite _ _ _ _ _ h := { h with }
  inWrite _ _ _ _ h := { h with }
  softReset _ h := softReset_compositor h
  hardwareReset _ h := { softReset_compositor h with }
  abort _ _ h := h.with_status rfl
  reject _ _ _ h := h.with_status rfl
  illegal s op _ _ h := CompositorBounds.raise (s := accept op s) { h with } _ _ _
  canvasInit _ _ h := acceptCanvasInit_compositor { h with }
  lzwDecode _ _ h := acceptLzw_compositor { h with }
  compose _ _ h := acceptCompose_compositor { h with }
  dispose _ _ h := acceptDispose_compositor { h with }
  aborted s _ _ h := by
    have hv : (endByAbort s).status.idxValid = s.status.idxValid := by
      unfold endByAbort
      cases s.eng <;> rfl
    exact compositorInv_of_stage .idle { h.bounds with index_valid := fun hi => h.index_valid (hv ▸ hi) } rfl trivial
  initStep _ he _ h := initStep_compositor h he
  compVStep _ he _ h := compVStep_compositor h he
  compSStep _ he _ h := compSStep_compositor h he
  compWStep _ he _ h := compWStep_compositor h he
  dispStep _ he _ h := dispStep_compositor h he
  exhausted _ _ _ _ h := h.bounds.raise _ _ _
  code s _ he _ _ h hx := (codeResult_of_exec (s := advanceCursor s) hx).frame.compositor { h with } he

end Sys2Proof.Machine

namespace Sys2Proof.Proofs

open Sys2Proof.Machine

/-- Settles O60: every part of a step keeps the bounds and what its ENG_STATE asks for. -/
theorem compositorInvariant : Obligations.CompositorInvariant :=
  fun _ _ h hx => step_keeps compositorInv_keptByParts h hx

end Sys2Proof.Proofs

/-! ## The registers as a Host reads and writes them (R22 to R46) -/

namespace Sys2Proof.Machine

open Claims (readWord writeWord readsAs storedBits)

/-! A register access goes to its register. -/

theorem readWord_register (s : State) {off : Nat} (h : off < 0x100) (hal : off % 4 = 0) :
    readWord s off = .next (respond (regRead off s) s) := by
  rw [readWord, hostRead_word s (by omega) hal, readOffset, locate_register s.params h]
  rfl

theorem writeWord_register (s : State) (w : Word) {off : Nat} (h : off < 0x100) (hal : off % 4 = 0) :
    writeWord s off w = registerWrite off w s := by
  rw [writeWord, hostWrite_word s w (by omega) hal, writeOffset, locate_register s.params h]
  rfl

theorem readsAs_register (s : State) {off : Nat} (h : off < 0x100) (hal : off % 4 = 0) {w : Word}
    (hw : regRead off s = w) : readsAs s off w :=
  ⟨_, readWord_register s h hal, by rw [hw]; rfl⟩

theorem registerWrite_config {off : Nat} (hcmd : off ≠ 0x004) (hstatus : off ≠ 0x008) (w : Word) (s : State) :
    registerWrite off w s = .next { s with regs := configWrite off w s.regs } := by
  rw [registerWrite, if_neg hcmd, if_neg hstatus]

/-! The bits a register stores. -/

/-- The low `n` bits of a word, as the register that stores them holds them and as they read back. -/
theorem setWidth_setWidth_eq_and (w : Word) {n : Nat} (hn : n ≤ 32) :
    (w.setWidth n).setWidth 32 = w &&& BitVec.ofNat 32 (2 ^ n - 1) := by
  apply BitVec.eq_of_toNat_eq
  have hpow : 2 ^ n ≤ 2 ^ 32 := Nat.pow_le_pow_right (by decide) hn
  have hw : w.toNat % 2 ^ n < 2 ^ n := Nat.mod_lt _ (Nat.two_pow_pos n)
  rw [BitVec.toNat_and, BitVec.toNat_ofNat, Nat.mod_eq_of_lt (show 2 ^ n - 1 < 2 ^ 32 by omega),
    Nat.and_two_pow_sub_one_eq_mod, BitVec.toNat_setWidth, BitVec.toNat_setWidth, Nat.mod_eq_of_lt (by omega)]

theorem extractLsb'_zero_eq_setWidth (w : Word) (n : Nat) : w.extractLsb' 0 n = w.setWidth n := by
  ext i hi
  simp [BitVec.getElem_extractLsb', BitVec.getElem_setWidth]

/-- An offset of no read-write register stores nothing. -/
theorem configWrite_of_not_stored {off : Nat} (h : storedBits off = none) (w : Word) (r : ConfigRegs) :
    configWrite off w r = r := by
  unfold configWrite
  split
  case h_12 => rfl
  all_goals exact absurd h (by decide)

/-- Each read-write register is as before unless the write is at its own offset. -/
structure OthersKept (off : Nat) (r r' : ConfigRegs) : Prop where
  irqEn : off ≠ 0x00C → r'.irqEn = r.irqEn
  canvasSize : off ≠ 0x010 → r'.canvasSize = r.canvasSize
  bgIndex : off ≠ 0x014 → r'.bgIndex = r.bgIndex
  gctCfg : off ≠ 0x018 → r'.gctCfg = r.gctCfg
  framePos : off ≠ 0x01C → r'.framePos = r.framePos
  frameSize : off ≠ 0x020 → r'.frameSize = r.frameSize
  frameFlags : off ≠ 0x024 → r'.frameFlags = r.frameFlags
  transpIndex : off ≠ 0x028 → r'.transpIndex = r.transpIndex
  lzwMin : off ≠ 0x02C → r'.lzwMin = r.lzwMin
  inBase : off ≠ 0x030 → r'.inBase = r.inBase
  inLen : off ≠ 0x034 → r'.inLen = r.inLen

theorem configWrite_others (off : Nat) (w : Word) (r : ConfigRegs) : OthersKept off r (configWrite off w r) := by
  unfold configWrite
  split <;> constructor <;> simp

/-- A register other than the one written reads as before. -/
theorem regRead_configWrite_ne {off off' : Nat} (h : off ≠ off') (w : Word) (s : State) :
    regRead off' { s with regs := configWrite off w s.regs } = regRead off' s := by
  have ho := configWrite_others off w s.regs
  unfold regRead
  split
  case h_4 => exact congrArg _ (ho.irqEn h)
  case h_5 => exact ho.canvasSize h
  case h_6 => exact congrArg _ (ho.bgIndex h)
  case h_7 => exact congrArg _ (ho.gctCfg h)
  case h_8 => exact ho.framePos h
  case h_9 => exact ho.frameSize h
  case h_10 => exact congrArg _ (ho.frameFlags h)
  case h_11 => exact congrArg _ (ho.transpIndex h)
  case h_12 => exact congrArg _ (ho.lzwMin h)
  case h_13 => exact ho.inBase h
  case h_14 => exact ho.inLen h
  all_goals rfl

theorem eq_and_fullMask (w : Word) : w = w &&& 0xFFFFFFFF := (BitVec.and_allOnes (x := w)).symm

/-- The register written reads as the stored bits of the word; one that stores none reads as before. -/
theorem regRead_configWrite_self (off : Nat) (w : Word) (s : State) :
    regRead off { s with regs := configWrite off w s.regs } =
      (storedBits off).elim (regRead off s) (w &&& ·) := by
  cases hbits : storedBits off with
  | none => rw [configWrite_of_not_stored hbits]; rfl
  | some mask =>
    unfold storedBits at hbits
    split at hbits <;> cases hbits
    case h_1 => exact setWidth_setWidth_eq_and w (n := 3) (by decide)
    case h_3 | h_8 => exact setWidth_setWidth_eq_and w (n := 8) (by decide)
    case h_4 | h_9 => exact setWidth_setWidth_eq_and w (n := 4) (by decide)
    case h_7 => exact setWidth_setWidth_eq_and w (n := 9) (by decide)
    all_goals exact eq_and_fullMask w

theorem regRead_configWrite (off off' : Nat) (w : Word) (s : State) :
    regRead off' { s with regs := configWrite off w s.regs } =
      if off' = off then (storedBits off).elim (regRead off' s) (w &&& ·) else regRead off' s := by
  split
  · rename_i h
    subst h
    exact regRead_configWrite_self _ w s
  · rename_i h
    exact regRead_configWrite_ne (Ne.symm h) w s

/-- The reserved offsets read 0. -/
theorem regRead_reserved {off : Nat} (h : 0x068 ≤ off) (s : State) : regRead off s = 0 := by
  unfold regRead
  split
  case h_27 => rfl
  all_goals omega

/-- After reset every register but ID reads 0 (R270). -/
theorem regRead_reset (off : Nat) : regRead off State.reset = if off = 0x000 then 0x4C5A5731 else 0 := by
  by_cases h : off = 0x000
  · subst h
    rfl
  · rw [if_neg h]
    unfold regRead
    split
    case h_1 => exact absurd rfl h
    all_goals rfl

/-! The fields of the words that hold more than one. -/

theorem halves_low (hi lo : BitVec 16) : (hi ++ lo : BitVec 32).extractLsb' 0 16 = lo := by
  rw [extractLsb'_append_low hi lo 0 (by decide)]
  simp

theorem halves_high (hi lo : BitVec 16) : (hi ++ lo : BitVec 32).extractLsb' 16 16 = hi := by
  rw [extractLsb'_append_high hi lo 16 (by decide)]
  simp

theorem colourWord_colour (c : Colour) : (colourWord c).extractLsb' 0 24 = c := by
  rw [colourWord, extractLsb'_zero_eq_setWidth]
  simp

theorem colourWord_high (c : Colour) : (colourWord c).extractLsb' 24 8 = 0 := by
  unfold colourWord
  ext i hi
  simp

end Sys2Proof.Machine

namespace Sys2Proof.Proofs

open Sys2Proof.Machine Sys2Proof.Claims

/-- Settles O10: the reset value of every register, read at its offset. -/
theorem resetRegisters : Obligations.ResetRegisters := by
  refine ⟨rfl, fun off h hal => ⟨_, readWord_register _ h hal, ?_⟩⟩
  exact congrArg some (regRead_reset off)

/-- Settles O11: what the write stores, and what every register reads as after it. -/
theorem registerWrites : Obligations.RegisterWrites := by
  intro s off w h hal hcmd hstatus
  refine ⟨{ s with regs := configWrite off w s.regs }, ?_, rfl, ?_, ?_, ?_, ?_, ?_, ?_, ?_, ?_, ?_, ?_, ?_, ?_,
    fun off' _ _ => regRead_configWrite off off' w s⟩
  · rw [writeWord_register s w h hal, registerWrite_config hcmd hstatus]
  · intro hnone
    rw [configWrite_of_not_stored hnone]
  all_goals
    rintro rfl
    simp only [extractLsb'_zero_eq_setWidth]
    rfl

/-- Settles O12: the words of the read-only registers, by the field laws of STATUS, LZW_STATE and FL_FLAGS. -/
theorem readOnlyRegisters : Obligations.ReadOnlyRegisters := by
  intro s
  have reads : ∀ {off : Nat}, off < 0x100 → off % 4 = 0 → readsAs s off (regRead off s) :=
    fun h hal => readsAs_register s h hal rfl
  refine ⟨reads (by decide) rfl, reads (by decide) rfl, ⟨statusWord s, reads (by decide) rfl, ?_⟩,
    reads (by decide) rfl, reads (by decide) rfl, ⟨lzwStateWord s, reads (by decide) rfl, ?_⟩,
    reads (by decide) rfl, reads (by decide) rfl, ⟨_, reads (off := 0x04C) (by decide) rfl, ?_⟩,
    ⟨_, reads (off := 0x050) (by decide) rfl, ?_⟩, ⟨_, reads (off := 0x054) (by decide) rfl, ?_⟩,
    ⟨_, reads (off := 0x058) (by decide) rfl, ?_⟩, ⟨_, reads (off := 0x05C) (by decide) rfl, ?_⟩,
    ⟨flFlagsWord s.frameLatch, reads (by decide) rfl, ?_⟩, reads (by decide) rfl, ?_⟩
  · exact ⟨statusWord_busy s, statusWord_done s, statusWord_err s, statusWord_rej s, statusWord_lastOp s,
      statusWord_errCode s, statusWord_canvasValid s, statusWord_idxValid s, statusWord_framePending s,
      statusWord_abortReq s, statusWord_rejOp s, statusWord_rejMem s, statusWord_reserved s⟩
  · exact ⟨lzwStateWord_width s, lzwStateWord_nextFree s, lzwStateWord_prev s, lzwStateWord_prevValid s,
      lzwStateWord_reserved s⟩
  · exact ⟨halves_low _ _, halves_high _ _⟩
  · exact ⟨colourWord_colour _, colourWord_high _⟩
  · exact ⟨halves_low _ _, halves_high _ _⟩
  · exact ⟨halves_low _ _, halves_high _ _⟩
  · exact ⟨halves_low _ _, halves_high _ _⟩
  · have tsel : ∀ sel, s.frameLatch.tsel = sel → (flFlagsWord s.frameLatch).extractLsb' 2 2 = tselBits sel :=
      fun sel hsel => hsel ▸ flFlagsWord_tsel s.frameLatch
    exact ⟨flFlagsWord_interlace _, flFlagsWord_ten _, tsel .noTable, tsel .globalTable, tsel .localTable,
      flFlagsWord_disp _, flFlagsWord_bit7 _, flFlagsWord_tidx _, flFlagsWord_tsize _, flFlagsWord_reserved _⟩
  · intro off hlow h hal
    exact readsAs_register s h hal (regRead_reserved hlow s)

/-- A bit written to STATUS clears its flag if it is 1, and leaves it if it is 0 (R27). -/
theorem and_not_eq_ite (flag b : Bool) : (flag && !b) = if b = true then false else flag := by
  cases b <;> simp

/-- Settles O13: STATUS after the write is `statusW1C`, field by field. -/
theorem statusWriteOneToClear : Obligations.StatusWriteOneToClear := by
  intro s w
  refine ⟨{ s with status := statusW1C w s.status }, writeWord_register s w (by decide) rfl, rfl, ?_, ?_, rfl, ?_, ?_,
    rfl⟩ <;> exact and_not_eq_ite _ _

/-! ## One step, and the reset state -/

/-- Settles O55: the access reaches CMD; a step of the Engine with enough bits left passes NEXTCODE. -/
theorem stepRunsInstruction : Obligations.StepRunsInstruction := by
  constructor
  · intro s w rest hev
    have hwrite := writeWord_register (dropEvent s) w (off := 0x004) (by decide) rfl
    rw [registerWrite, if_pos rfl] at hwrite
    unfold step
    rw [hev]
    refine hwrite.trans ?_
    rw [dropEvent, hev]
    rfl
  · intro s hev he ha hbits
    rw [step_of_no_event hev, engineStep_of_lzw he ha, lzwStep_of_code hbits]
    rfl

end Sys2Proof.Proofs

namespace Sys2Proof.Machine

theorem storageInv_reset : StorageInv State.reset where
  params_legal := rfl
  inMem_wf := rfl
  idxMem_wf := rfl
  gct_wf := rfl
  lct_wf := rfl
  canvas_wf := rfl
  snap_wf := rfl
  table_wf := rfl
  inMem_below := rfl
  idxMem_below := rfl
  gct_below := rfl
  lct_below := rfl
  canvas_below := rfl
  snap_below := rfl
  table_below := rfl
  canvas_fits := Nat.zero_le _
  index_fits := Nat.zero_le _
  in_lzw := nofun
  in_init := nofun
  in_disp := nofun

theorem compositorBounds_reset : CompositorBounds State.reset where
  params_legal := rfl
  canvas_fits := Nat.zero_le _
  index_fits := Nat.zero_le _
  frame_fits := Nat.zero_le _
  index_valid := nofun
  disposal_legal := Nat.zero_le _

end Sys2Proof.Machine

namespace Sys2Proof.Proofs

open Sys2Proof.Machine

/-- Settles O56: after reset the Engine is idle, every latch is 0 and no cell is written. -/
theorem resetInvariant : Obligations.ResetInvariant where
  control := controlInv_of_reset rfl rfl
  storage := storageInv_reset
  lzw := ⟨rfl, nofun⟩
  compositor := compositorInv_of_stage .idle compositorBounds_reset rfl trivial

end Sys2Proof.Proofs

/-! ## Host accesses of the address map (R60 to R63) -/

namespace Sys2Proof.Machine

open Claims (wordAccess readable writable)

/-! Where an access goes. -/

theorem decodeAddress_of_access {p : Params} {addr bytes : Nat} (h : wordAccess p addr bytes) :
    decodeAddress p addr bytes = .ok (addr - p.base) := by
  obtain ⟨hbytes, hlow, hhigh, hal⟩ := h
  exact (decodeAddress_ok_iff p addr bytes _).mpr ⟨hbytes, hlow, hhigh, hal, rfl⟩

theorem decodeAddress_of_not_access {p : Params} {addr bytes : Nat} (h : ¬ wordAccess p addr bytes) :
    ∃ f, decodeAddress p addr bytes = .error f := by
  cases hd : decodeAddress p addr bytes with
  | error f => exact ⟨f, rfl⟩
  | ok off =>
    obtain ⟨hbytes, hlow, hhigh, hal, -⟩ := (decodeAddress_ok_iff p addr bytes off).mp hd
    exact absurd ⟨hbytes, hlow, hhigh, hal⟩ h

theorem hostRead_of_access {s : State} {addr bytes : Nat} (h : wordAccess s.params addr bytes) :
    hostRead addr bytes s = readOffset (addr - s.params.base) s := by
  unfold hostRead
  rw [decodeAddress_of_access h]

theorem hostRead_of_not_access {s : State} {addr bytes : Nat} (h : ¬ wordAccess s.params addr bytes) :
    ∃ f, hostRead addr bytes s = .fault f := by
  obtain ⟨f, hf⟩ := decodeAddress_of_not_access h
  unfold hostRead
  rw [hf]
  exact ⟨f, rfl⟩

theorem hostWrite_of_access {s : State} {addr bytes : Nat} (h : wordAccess s.params addr bytes) (w : Word) :
    hostWrite addr bytes 0xF w s = writeOffset (addr - s.params.base) w s := by
  unfold hostWrite
  rw [decodeAddress_of_access h]
  rfl

theorem hostWrite_of_not_access {s : State} {addr bytes : Nat} {enables : BitVec 4}
    (h : ¬ (wordAccess s.params addr bytes ∧ enables = 0xF)) (w : Word) :
    ∃ f, hostWrite addr bytes enables w s = .fault f := by
  unfold hostWrite
  by_cases ha : wordAccess s.params addr bytes
  · rw [decodeAddress_of_access ha]
    exact ⟨.busWidth, if_neg fun he => h ⟨ha, he⟩⟩
  · obtain ⟨f, hf⟩ := decodeAddress_of_not_access ha
    rw [hf]
    exact ⟨f, rfl⟩

/-! What the address map names. -/

theorem readable_of_locate {p : Params} {off : Nat} {place : Place} (h : locate p off = .ok place) :
    readable p off := by
  unfold readable
  rcases locate_ok_cases h with ⟨-, h⟩ | ⟨-, h⟩ | ⟨-, h⟩ | ⟨-, h⟩ | ⟨-, h⟩ | ⟨-, h⟩ <;> omega

/-- Every offset that R62 answers a read of is named by the map. -/
theorem locate_of_readable {p : Params} {off : Nat} (h : readable p off) : ∃ place, locate p off = .ok place := by
  cases hl : locate p off with
  | ok place => exact ⟨place, rfl⟩
  | error f =>
    unfold readable at h
    unfold locate within at hl
    split_ifs at hl <;> omega

theorem readable_of_writable {p : Params} {off : Nat} (h : writable p off) : readable p off := by
  unfold writable at h
  unfold readable
  omega

theorem readable_lt {p : Params} {off : Nat} (h : readable p off) : off < 2 ^ 30 := by
  unfold readable at h
  omega

/-- The places that take a write. -/
def Place.isWritable : Place → Prop
  | .register _ | .gct _ | .lct _ | .inMem _ => True
  | .idxMem _ | .canvas _ => False

theorem isWritable_iff_writable {p : Params} {off : Nat} {place : Place} (h : locate p off = .ok place) :
    place.isWritable ↔ writable p off := by
  unfold writable
  rcases locate_ok_cases h with ⟨rfl, h⟩ | ⟨rfl, h⟩ | ⟨rfl, h⟩ | ⟨rfl, h⟩ | ⟨rfl, h⟩ | ⟨rfl, h⟩ <;>
    simp only [Place.isWritable, true_iff, false_iff] <;> omega

/-- The register named stands at the offset. -/
theorem locate_register_inj {p : Params} {off reg : Nat} (h : locate p off = .ok (.register reg)) : reg = off := by
  rcases locate_ok_cases h with ⟨h, -⟩ | ⟨h, -⟩ | ⟨h, -⟩ | ⟨h, -⟩ | ⟨h, -⟩ | ⟨h, -⟩ <;> cases h
  rfl

theorem registerWrite_next (off : Nat) (w : Word) (s : State) : ∃ t, registerWrite off w s = .next t := by
  unfold registerWrite
  split
  · obtain ⟨t, ht, -⟩ := exec_resourcesKept (decodeCmd w) s
    exact ⟨t, ht⟩
  · split <;> exact ⟨_, rfl⟩

theorem writePlace_next {place : Place} (h : place.isWritable) (w : Word) (s : State) :
    ∃ t, writePlace place w s = .next t := by
  cases place with
  | register off => exact registerWrite_next off w s
  | gct i | lct i | inMem a => exact ⟨_, rfl⟩
  | idxMem a | canvas n => exact h.elim

theorem writePlace_fault {place : Place} (h : ¬ place.isWritable) (w : Word) (s : State) :
    ∃ f, writePlace place w s = .fault f := by
  cases place with
  | register off | gct i | lct i | inMem a => exact absurd trivial h
  | idxMem a | canvas n => exact ⟨_, rfl⟩

theorem writeOffset_of_locate {s : State} {off : Nat} {place : Place} (h : locate s.params off = .ok place) (w : Word) :
    writeOffset off w s = writePlace place w s := by
  unfold writeOffset
  rw [h]

theorem writeOffset_next {s : State} {off : Nat} (h : writable s.params off) (w : Word) :
    ∃ t, writeOffset off w s = .next t := by
  obtain ⟨place, hl⟩ := locate_of_readable (readable_of_writable h)
  rw [writeOffset_of_locate hl]
  exact writePlace_next ((isWritable_iff_writable hl).mpr h) w s

theorem writeOffset_fault {s : State} {off : Nat} (h : ¬ writable s.params off) (w : Word) :
    ∃ f, writeOffset off w s = .fault f := by
  cases hl : locate s.params off with
  | error f => exact ⟨f, by rw [writeOffset, hl]⟩
  | ok place =>
    rw [writeOffset_of_locate hl]
    exact writePlace_fault (mt (isWritable_iff_writable hl).mp h) w s

theorem readOffset_of_locate {s : State} {off : Nat} {place : Place} (h : locate s.params off = .ok place) :
    readOffset off s = .next (readPlace place s) := by
  unfold readOffset
  rw [h]

theorem readOffset_fault {s : State} {off : Nat} (h : ¬ readable s.params off) : ∃ f, readOffset off s = .fault f := by
  cases hl : locate s.params off with
  | error f => exact ⟨f, by rw [readOffset, hl]⟩
  | ok place => exact absurd (readable_of_locate hl) h

end Sys2Proof.Machine

namespace Sys2Proof.Proofs

open Sys2Proof.Machine Sys2Proof.Claims

/-- Settles O18: an access of the map reads its place, and a place's read changes only the response. -/
theorem readsAnswerOrFault : Obligations.ReadsAnswerOrFault := by
  intro s addr bytes
  constructor
  · rintro ⟨haccess, hread⟩
    obtain ⟨place, hl⟩ := locate_of_readable hread
    obtain ⟨w, hw⟩ := readPlace_eq place s
    exact ⟨_, w, (hostRead_of_access haccess).trans (readOffset_of_locate hl), hw⟩
  · intro hnot
    by_cases haccess : wordAccess s.params addr bytes
    · rw [hostRead_of_access haccess]
      exact readOffset_fault fun hread => hnot ⟨haccess, hread⟩
    · exact hostRead_of_not_access haccess

/-- Settles O19: an access of the map with all byte enables is taken exactly at a place that takes writes. -/
theorem writesAnswerOrFault : Obligations.WritesAnswerOrFault := by
  intro s addr bytes enables w
  constructor
  · rintro ⟨haccess, rfl, hwrite⟩
    rw [hostWrite_of_access haccess]
    exact writeOffset_next hwrite w
  · intro hnot
    by_cases haccess : wordAccess s.params addr bytes ∧ enables = 0xF
    · obtain ⟨haccess, rfl⟩ := haccess
      rw [hostWrite_of_access haccess]
      exact writeOffset_fault (fun hwrite => hnot ⟨haccess, rfl, hwrite⟩) w
    · exact hostWrite_of_not_access haccess w

/-- Settles O52: the Engine, WAIT, the test of STATUS and a reset always have a next state; a Host access has one or
faults. -/
theorem onlyBusErrorsStop : Obligations.OnlyBusErrorsStop := by
  intro s
  cases hev : s.host.events with
  | nil =>
    obtain ⟨t, ht, -⟩ := engineStep_hostSideKept s
    exact .inl ⟨t, (step_of_no_event hev).trans ht⟩
  | cons e rest =>
    have hstep : step s = runEvent e (dropEvent s) := by rw [step, hev]
    rw [hstep]
    cases e with
    | engineStep =>
      obtain ⟨t, ht, -⟩ := engineStep_hostSideKept (dropEvent s)
      exact .inl ⟨t, ht⟩
    | read addr bytes =>
      obtain ⟨hnext, hfault⟩ := readsAnswerOrFault (dropEvent s) addr bytes
      rcases Classical.em _ with h | h
      · obtain ⟨t, -, ht, -⟩ := hnext h
        exact .inl ⟨t, ht⟩
      · obtain ⟨f, hf⟩ := hfault h
        exact .inr ⟨f, rest, hf, .inl ⟨addr, bytes, rfl⟩⟩
    | write addr bytes enables w =>
      obtain ⟨hnext, hfault⟩ := writesAnswerOrFault (dropEvent s) addr bytes enables w
      rcases Classical.em _ with h | h
      · exact .inl (hnext h)
      · obtain ⟨f, hf⟩ := hfault h
        exact .inr ⟨f, rest, hf, .inr ⟨addr, bytes, enables, w, rfl⟩⟩
    | wait | stopOnError | hardwareReset => exact .inl ⟨_, rfl⟩

end Sys2Proof.Proofs

/-! ## Noninterference: what the Engine sees (R70, R74, R221, R224, R283) -/

namespace Sys2Proof.Machine

open Claims (wordAccess)

/-! Equal views step to equal views. -/

/-- A state with the given view: whatever the Engine does not see is as after reset. -/
def viewState (v : EngineView) : State :=
  { State.reset with
    params := v.params
    eng := v.eng
    status := { Status.reset with
      canvasValid := v.canvasValid, idxValid := v.idxValid, framePending := v.framePending, abortReq := v.abortReq }
    lzw := v.lzw
    bitPos := v.bitPos
    pixCount := v.pixCount
    progress := v.progress
    work := v.work
    canvasLatch := v.canvasLatch
    indexLatch := v.indexLatch
    frameLatch := v.frameLatch
    inMem := v.inMem
    idxMem := v.idxMem
    gct := v.gct
    lct := v.lct
    canvas := v.canvas
    snap := v.snap
    table := v.table }

/-- Two states the Engine cannot tell apart. -/
def SameView (s s' : State) : Prop := engineView s = engineView s'

/-- What does not look beyond the view is the same in both. -/
theorem SameView.apply {s s' : State} (h : SameView s s') {α : Type} (f : State → α)
    (hf : ∀ s, f s = f (viewState (engineView s))) : f s = f s' := by
  rw [hf s, hf s', h]

theorem SameView.raise {s s' : State} (h : SameView s s') (e e' : ErrorCode) (i0 i1 i0' i1' : Word) :
    SameView (raise e i0 i1 s) (raise e' i0' i1' s') := by
  change { engineView s with eng := .idle } = { engineView s' with eng := .idle }
  rw [show engineView s = engineView s' from h]

theorem SameView.advanceCursor {s s' : State} (h : SameView s s') : SameView (advanceCursor s) (advanceCursor s') :=
  h.apply (fun s => engineView (Machine.advanceCursor s)) fun _ => rfl

theorem SameView.initTable {s s' : State} (h : SameView s s') : SameView (initTable s) (initTable s') :=
  h.apply (fun s => engineView (Machine.initTable s)) fun _ => rfl

theorem SameView.setPrev {s s' : State} (h : SameView s s') (c : Code) : SameView (setPrev c s) (setPrev c s') :=
  h.apply (fun s => engineView (Machine.setPrev c s)) fun _ => rfl

theorem SameView.addSlot {s s' : State} (h : SameView s s') (q : Code) (v : Byte) :
    SameView (addSlot q v s) (addSlot q v s') :=
  h.apply (fun s => engineView (Machine.addSlot q v s)) fun s => by
    unfold Machine.addSlot
    simp only [apply_ite engineView]
    rfl

theorem SameView.emitIndex {s s' : State} (h : SameView s s') (v : Byte) :
    SameView (emitIndex v s) (emitIndex v s') :=
  h.apply (fun s => engineView (Machine.emitIndex v s)) fun s => by
    unfold Machine.emitIndex
    simp only [apply_ite engineView]
    rfl

theorem SameView.emit {s s' : State} (h : SameView s s') (str : List Byte) : SameView (emit str s) (emit str s') := by
  induction str generalizing s s' with
  | nil => exact h
  | cons v vs ih => exact ih (h.emitIndex v)

theorem SameView.finishIfComplete {s s' : State} (h : SameView s s') :
    SameView (finishIfComplete s) (finishIfComplete s') :=
  h.apply (fun s => engineView (Machine.finishIfComplete s)) fun s => by
    unfold Machine.finishIfComplete
    simp only [apply_ite engineView]
    rfl

theorem SameView.strOf {s s' : State} (h : SameView s s') (c : Code) : strOf s c = strOf s' c :=
  strChain_congr (fun k => h.apply (fun s => slotAt s k) fun _ => rfl) 4096 c.toNat

theorem SameView.prev {s s' : State} (h : SameView s s') : s.lzw.prev = s'.lzw.prev :=
  h.apply (fun s => s.lzw.prev) fun _ => rfl

/-- What HIT and KWKWK share. -/
theorem SameView.build {s s' : State} (h : SameView s s') (c : Code) (v : Byte) (str : List Byte) :
    SameView (Machine.finishIfComplete (Machine.setPrev c (Machine.addSlot s.lzw.prev v (Machine.emit str s))))
      (Machine.finishIfComplete (Machine.setPrev c (Machine.addSlot s'.lzw.prev v (Machine.emit str s')))) := by
  rw [h.prev]
  exact (((h.emit str).addSlot _ _).setPrev c).finishIfComplete

/-- Both outcomes are next states, with equal views. -/
def StepAlike (o o' : Host.Outcome State Fault Refusal) : Prop :=
  ∃ t t', o = .next t ∧ o' = .next t' ∧ SameView t t'

theorem SameView.next {t t' : State} (h : SameView t t') : StepAlike (.next t) (.next t') := ⟨t, t', rfl, rfl, h⟩

/-- A code of any class takes equal views to equal views: what it reads, STR(c) and PREV, is in the view. -/
theorem SameView.exec_code {s s' : State} (h : SameView s s') (ctx : CodeCtx) (c : Code) :
    StepAlike (exec (decodeCode ctx c) s) (exec (decodeCode ctx c) s') := by
  rcases decodeCode_cases ctx c with ⟨-, hd⟩ | ⟨-, hd⟩ | ⟨-, -, hd⟩ | ⟨-, -, hd⟩ | ⟨-, -, -, -, hd⟩ | ⟨-, -, hd⟩ <;>
    rw [hd]
  · exact h.initTable.finishIfComplete.next
  · exact (h.raise _ _ _ _ _ _).next
  · exact ((h.emit _).setPrev c).finishIfComplete.next
  · have hbuild := h.build c (firstOf (Machine.strOf s c)) (Machine.strOf s c)
    refine ⟨_, _, rfl, rfl, ?_⟩
    rwa [← h.strOf c]
  · have hp : Machine.strOf s' s'.lzw.prev = Machine.strOf s s.lzw.prev := by rw [← h.prev, h.strOf]
    have hbuild := h.build c (firstOf (Machine.strOf s s.lzw.prev))
      (Machine.strOf s s.lzw.prev ++ [firstOf (Machine.strOf s s.lzw.prev)])
    refine ⟨_, _, rfl, rfl, ?_⟩
    rwa [hp]
  · exact (h.raise _ _ _ _ _ _).next

theorem SameView.lzwStep {s s' : State} (h : SameView s s') : StepAlike (lzwStep s) (lzwStep s') := by
  have hwidth : s.lzw.width = s'.lzw.width := h.apply (fun s => s.lzw.width) fun _ => rfl
  have hleft : bitsLeft s = bitsLeft s' := h.apply bitsLeft fun _ => rfl
  have hctx : codeCtx s = codeCtx s' := h.apply codeCtx fun _ => rfl
  have hcode : codeAtCursor s = codeAtCursor s' := h.apply codeAtCursor fun _ => rfl
  rcases Nat.lt_or_ge (bitsLeft s) s.lzw.width.toNat with hb | hb
  · rw [lzwStep_of_exhausted hb, lzwStep_of_exhausted (by rwa [← hleft, ← hwidth])]
    exact (h.raise _ _ _ _ _ _).next
  · rw [lzwStep_of_code hb, lzwStep_of_code (by rwa [← hleft, ← hwidth]), ← hctx, ← hcode]
    exact h.advanceCursor.exec_code _ _

/-! The compositor's steps and the end by abort. -/

theorem SameView.initStep {s s' : State} (h : SameView s s') : SameView (initStep s) (initStep s') :=
  h.apply (fun s => engineView (Machine.initStep s)) fun s => by
    unfold Machine.initStep
    simp only [apply_ite engineView]
    rfl

theorem SameView.compVStep {s s' : State} (h : SameView s s') : SameView (compVStep s) (compVStep s') :=
  h.apply (fun s => engineView (Machine.compVStep s)) fun s => by
    unfold Machine.compVStep
    simp only [apply_ite engineView]
    rfl

theorem SameView.compSStep {s s' : State} (h : SameView s s') : SameView (compSStep s) (compSStep s') :=
  h.apply (fun s => engineView (Machine.compSStep s)) fun _ => rfl

/-- The cells that a pixel of COMPOSE leaves are a matter of the view. -/
theorem writePixel_canvas_view (s : State) :
    (writePixel s).canvas = (writePixel (viewState (engineView s))).canvas := by
  unfold writePixel
  simp only [apply_ite State.canvas]
  rfl

theorem SameView.compWStep {s s' : State} (h : SameView s s') : SameView (compWStep s) (compWStep s') :=
  h.apply (fun s => engineView (Machine.compWStep s)) fun s => by
    unfold Machine.compWStep
    rw [writePixel_eq s, writePixel_eq (viewState _), ← writePixel_canvas_view]
    simp only [apply_ite engineView]
    rfl

/-- So are the cells that a restored pixel leaves. -/
theorem restorePixel_canvas_view (s : State) :
    (restorePixel s).canvas = (restorePixel (viewState (engineView s))).canvas := by
  unfold restorePixel
  simp only [apply_ite State.canvas]
  rfl

theorem SameView.dispStep {s s' : State} (h : SameView s s') : SameView (dispStep s) (dispStep s') :=
  h.apply (fun s => engineView (Machine.dispStep s)) fun s => by
    have hnext : ∀ u, nextInRegion s.canvasLatch s.frameLatch s.work.x s.work.y = u →
        nextInRegion (viewState (engineView s)).canvasLatch (viewState (engineView s)).frameLatch
          (viewState (engineView s)).work.x (viewState (engineView s)).work.y = u := fun _ hu => hu
    unfold Machine.dispStep
    rw [restorePixel_eq s, restorePixel_eq (viewState _), ← restorePixel_canvas_view]
    cases hn : nextInRegion s.canvasLatch s.frameLatch s.work.x s.work.y <;> rw [hnext _ hn] <;> rfl

theorem SameView.endByAbort {s s' : State} (h : SameView s s') : SameView (endByAbort s) (endByAbort s') :=
  h.apply (fun s => engineView (Machine.endByAbort s)) fun s => by
    obtain ⟨_, eng, _⟩ := s
    cases eng <;> rfl

theorem SameView.engineStep {s s' : State} (h : SameView s s') : StepAlike (engineStep s) (engineStep s') := by
  have heng : s.eng = s'.eng := h.apply State.eng fun _ => rfl
  have habort : (busy s && s.status.abortReq) = (busy s' && s'.status.abortReq) :=
    h.apply (fun s => busy s && s.status.abortReq) fun _ => rfl
  unfold Machine.engineStep
  rw [← habort, ← heng]
  split
  · exact h.endByAbort.next
  · cases s.eng with
    | idle => exact h.next
    | init => exact h.initStep.next
    | lzw => exact h.lzwStep
    | compV => exact h.compVStep.next
    | compS => exact h.compSStep.next
    | compW => exact h.compWStep.next
    | disp => exact h.dispStep.next

/-! No Host access but SOFT_RESET and ABORT changes the view. -/

/-- While busy, every CMD word but the exact SOFT_RESET and ABORT words is rejected (R221). -/
theorem exec_decodeCmd_busy {s : State} (hb : busy s = true) {w : Word} (hreset : w ≠ 0x00000001)
    (habort : w ≠ 0x00000006) : ∃ op, exec (decodeCmd w) s = .next (reject op s) := by
  have rejected : ∀ op f, (Host.Outcome.next (request op f s) : Host.Outcome State Fault Refusal)
      = .next (reject op s) := fun op f => by rw [request, if_pos hb]
  have word : ∀ op : BitVec 4, cmdRsvd w = 0 → (cmdOp w).toNat = op.toNat → w = cmdWord op := fun op h0 hop => by
    rw [← cmdRsvd_append_cmdOp w, h0, BitVec.eq_of_toNat_eq hop]; rfl
  unfold decodeCmd
  split
  · exact ⟨_, rejected _ _⟩
  · rename_i hrsvd
    rw [not_not] at hrsvd
    split
    case h_2 hop => exact absurd (word 0x1 hrsvd hop) hreset
    case h_7 hop => exact absurd (word 0x6 hrsvd hop) habort
    all_goals exact ⟨_, rejected _ _⟩

/-- A register write while busy is a rejected request, a write of STATUS bits the view leaves out, or a configuration
register (R27, R74, R221). -/
theorem registerWrite_busy {s t : State} (hb : busy s = true) {off : Nat} {w : Word}
    (hcmd : off = 0x004 → w ≠ 0x00000001 ∧ w ≠ 0x00000006) (hx : registerWrite off w s = .next t) :
    SameView t s := by
  unfold registerWrite at hx
  split at hx
  · rename_i hoff
    obtain ⟨op, hr⟩ := exec_decodeCmd_busy hb (hcmd hoff).1 (hcmd hoff).2
    rw [hr] at hx
    cases hx
    rfl
  · split at hx <;> cases hx <;> rfl

theorem windowWrite_busy {s : State} (hb : busy s = true) (store : State → State) :
    windowWrite store s = { s with status := { s.status with rej := true, rejMem := true } } := by
  rw [windowWrite, if_pos hb]

theorem writePlace_busy {s t : State} (hb : busy s = true) {place : Place} {w : Word}
    (hcmd : place = .register 0x004 → w ≠ 0x00000001 ∧ w ≠ 0x00000006) (hx : writePlace place w s = .next t) :
    SameView t s := by
  cases place with
  | register off => exact registerWrite_busy hb (fun hoff => hcmd (congrArg _ hoff)) hx
  | gct i | lct i | inMem a =>
    cases hx
    rw [windowWrite_busy hb]
    rfl
  | idxMem a | canvas n => cases hx

theorem hostWrite_busy {s t : State} (hb : busy s = true) {addr bytes : Nat} {enables : BitVec 4} {w : Word}
    (hcmd : addr = s.params.base + 4 → w ≠ 0x00000001 ∧ w ≠ 0x00000006)
    (hx : hostWrite addr bytes enables w s = .next t) : SameView t s := by
  by_cases haccess : wordAccess s.params addr bytes ∧ enables = 0xF
  · obtain ⟨haccess, rfl⟩ := haccess
    rw [hostWrite_of_access haccess] at hx
    obtain ⟨-, hbase, -, -⟩ := haccess
    cases hl : locate s.params (addr - s.params.base) with
    | error f => rw [writeOffset, hl] at hx; cases hx
    | ok place =>
      rw [writeOffset_of_locate hl] at hx
      refine writePlace_busy hb (fun hplace => hcmd ?_) hx
      have hoff := locate_register_inj (hplace ▸ hl)
      omega
  · obtain ⟨f, hf⟩ := hostWrite_of_not_access haccess w
    rw [hf] at hx
    cases hx

theorem hostRead_sameView {s t : State} {addr bytes : Nat} (hx : hostRead addr bytes s = .next t) : SameView t s := by
  obtain ⟨hnext, hfault⟩ := Proofs.readsAnswerOrFault s addr bytes
  rcases Classical.em _ with h | h
  · obtain ⟨u, w, hu, hframe⟩ := hnext h
    rw [hx] at hu
    cases hu
    rw [hframe]
    rfl
  · obtain ⟨f, hf⟩ := hfault h
    rw [hx] at hf
    cases hf

theorem pollWait_sameView (s : State) : SameView (pollWait s) s := by
  unfold pollWait
  dsimp only
  split <;> rfl

theorem checkError_sameView (s : State) : SameView (checkError s) s := by
  unfold checkError
  dsimp only
  split <;> rfl

end Sys2Proof.Machine

namespace Sys2Proof.Proofs

open Sys2Proof.Machine

/-- Settles O31: a read changes the response, a write while busy is rejected, dropped or stored in a register the view
leaves out. -/
theorem hostCannotDisturb : Obligations.HostCannotDisturb := by
  intro s t e hb hharmless hx
  cases e with
  | engineStep | hardwareReset => cases hharmless
  | read addr bytes => exact hostRead_sameView hx
  | write addr bytes enables w =>
    refine hostWrite_busy hb (fun haddr => ?_) hx
    simpa [harmless, haddr] using hharmless
  | wait => cases hx; exact pollWait_sameView s
  | stopOnError => cases hx; exact checkError_sameView s

/-- Settles O32: each part of an Engine step takes equal views to equal views. -/
theorem engineReadsOnlyItsView : Obligations.EngineReadsOnlyItsView :=
  fun _ _ h => SameView.engineStep h

end Sys2Proof.Proofs

/-! ## The memory windows as the Host sees them (R62, R65 to R67, R69, R70) -/

namespace Sys2Proof.Machine

open Claims (writable readWord writeWord)

/-! A window access goes to its place. -/

theorem readWord_place {s : State} {off : Nat} {place : Place} (hl : locate s.params off = .ok place)
    (hal : off % 4 = 0) : readWord s off = .next (readPlace place s) := by
  rw [readWord, hostRead_word s (readable_lt (readable_of_locate hl)) hal, readOffset_of_locate hl]

theorem writeWord_place {s : State} {off : Nat} {place : Place} (hl : locate s.params off = .ok place)
    (hal : off % 4 = 0) (w : Word) : writeWord s off w = writePlace place w s := by
  rw [writeWord, hostWrite_word s w (readable_lt (readable_of_locate hl)) hal, writeOffset_of_locate hl]

theorem windowWrite_idle {s : State} (hb : busy s = false) (store : State → State) :
    windowWrite store s = store s := by
  rw [windowWrite, if_neg (by rw [hb]; decide)]

/-- A writable offset beyond the registers is a word of the GCT, LCT or IN_MEM window, and drops a write while busy
(R70). -/
theorem writePlace_window_busy {s : State} (hb : busy s = true) {off : Nat} {place : Place}
    (hl : locate s.params off = .ok place) (hw : writable s.params off) (hoff : 0x100 ≤ off) (w : Word) :
    writePlace place w s = .next { s with status := { s.status with rej := true, rejMem := true } } := by
  have hplace := (isWritable_iff_writable hl).mpr hw
  cases place with
  | register reg =>
    rcases locate_ok_cases hl with ⟨-, h⟩ | ⟨h, -⟩ | ⟨h, -⟩ | ⟨h, -⟩ | ⟨h, -⟩ | ⟨h, -⟩
    · omega
    all_goals cases h
  | gct i | lct i | inMem a => exact congrArg _ (windowWrite_busy hb _)
  | idxMem a | canvas n => exact hplace.elim

/-! IN_MEM. -/

/-- The state after a word write to IN_MEM while idle (R62, R65). -/
def storeWord (s : State) (a : Nat) (w : Word) : State :=
  { s with inMem := putWindowWord s.params.inMemBytes a w s.inMem }

theorem writeWord_inMem {s : State} (hp : s.params.legal = true) (hb : busy s = false) {a : Nat} (hal : a % 4 = 0)
    (ha : a < s.params.inMemBytes) (w : Word) : writeWord s (0x01000000 + a) w = .next (storeWord s a w) := by
  obtain ⟨hin, -, -⟩ := Params.capacities hp
  rw [writeWord_place (locate_inMem s.params (by omega) ha) (by omega)]
  exact congrArg _ (windowWrite_idle hb _)

theorem inByte_storeWord (s : State) (a : Nat) (w : Word) (b : Nat) :
    inByte (storeWord s a w) b =
      if a ≤ b ∧ b < a + 4 ∧ b < s.params.inMemBytes then wordByte w (b - a) else inByte s b :=
  putWindowWord_get s.params.inMemBytes a w s.inMem _ b

/-- A whole word of IN_MEM reads back as it was stored (R65). -/
theorem windowWord_storeWord (s : State) {a : Nat} (ha : a + 4 ≤ s.params.inMemBytes) (w : Word) :
    windowWord s.params.inMemBytes (inByte (storeWord s a w)) a = w := by
  have hbyte : ∀ i, i < 4 → windowByte s.params.inMemBytes (inByte (storeWord s a w)) (a + i) = wordByte w i := by
    intro i hi
    rw [windowByte, if_pos (by omega), inByte_storeWord, if_pos (by omega), Nat.add_sub_cancel_left]
  rw [windowWord, hbyte 1 (by decide), hbyte 2 (by decide), hbyte 3 (by decide)]
  exact (congrArg (leWord · _ _ _) (hbyte 0 (by decide))).trans (leWord_wordByte w)

/-! IDX_MEM and CANVAS. -/

/-- Byte i of a window's word is the memory's byte, or 0 beyond the capacity (R62, R65). -/
theorem wordByte_windowWord (capacity : Nat) (mem : Nat → Byte) (a : Nat) {i : Nat} (hi : i < 4) :
    wordByte (windowWord capacity mem a) i = windowByte capacity mem (a + i) := by
  rw [windowWord, wordByte_leWord _ _ _ _ i hi]
  interval_cases i <;> rfl

/-- A CANVAS word is a colour in every state, and the cell's while the Engine does not write the canvas (R67, R69). -/
theorem readPlace_canvas (s : State) (n : Nat) :
    ∃ c, (readPlace (.canvas n) s).host.response = some (colourWord c)
      ∧ (s.eng = .idle ∨ s.eng = .lzw → n < canvasArea s → c = canvasCell s n) := by
  cases hu : canvasInUse s.eng
  · refine ⟨canvasView s n, by simp [readPlace, hu], fun _ hn => ?_⟩
    rw [canvasView, if_pos hn]
  · refine ⟨(Config.freshWord s.draws).setWidth 24, by simp [readPlace, hu, respondFresh], fun he => ?_⟩
    rcases he with he | he <;> rw [he] at hu <;> cases hu

end Sys2Proof.Machine

namespace Sys2Proof.Proofs

open Sys2Proof.Machine Sys2Proof.Claims

/-- Settles O20: the offset is a window's word, and each window drops the write. -/
theorem busyWindowWrites : Obligations.BusyWindowWrites := by
  intro s off w hb hw hoff hal
  obtain ⟨place, hl⟩ := locate_of_readable (readable_of_writable hw)
  rw [writeWord_place hl hal]
  exact writePlace_window_busy hb hl hw hoff w

/-- Settles O15: the bytes the word store leaves, and their word as it is read. -/
theorem inputMemoryWords : Obligations.InputMemoryWords := by
  intro s k w hp hb hk
  obtain ⟨hin, -, -⟩ := Params.capacities hp
  refine ⟨storeWord s (4 * k) w, writeWord_inMem hp hb (by omega) hk w, rfl, inByte_storeWord s (4 * k) w,
    fun hfull => ?_⟩
  have hl := locate_inMem (storeWord s (4 * k) w).params (show 4 * k < 0x01000000 by omega) hk
  exact ⟨_, readWord_place hl (by omega), congrArg some (windowWord_storeWord s hfull w)⟩

/-- Settles O16: both tables store the low 24 bits of the word, and read as the colour's word. -/
theorem colourTableWords : Obligations.ColourTableWords := by
  intro s i hi
  have hgct := locate_gct s.params hi
  have hlct := locate_lct s.params hi
  refine ⟨fun w hb => ⟨⟨{ s with gct := s.gct.put i (w.setWidth 24) }, ?_, rfl, fun j => ?_⟩,
      { s with lct := s.lct.put i (w.setWidth 24) }, ?_, rfl, fun j => ?_⟩,
    ⟨colourWord (gctEntry s i), ⟨_, readWord_place hgct (by omega), rfl⟩, colourWord_colour _, colourWord_high _⟩,
    colourWord (lctEntry s i), ⟨_, readWord_place hlct (by omega), rfl⟩, colourWord_colour _, colourWord_high _⟩
  · rw [writeWord_place hgct (by omega)]
    exact congrArg _ (windowWrite_idle hb _)
  · rw [extractLsb'_zero_eq_setWidth]
    exact Store.get_put s.gct _ i j _
  · rw [writeWord_place hlct (by omega)]
    exact congrArg _ (windowWrite_idle hb _)
  · rw [extractLsb'_zero_eq_setWidth]
    exact Store.get_put s.lct _ i j _

/-- Settles O17: the bytes of an IDX_MEM word, and the colour of a CANVAS word. -/
theorem resultWindows : Obligations.ResultWindows := by
  intro s hp
  obtain ⟨-, hidx, hcanvas⟩ := Params.capacities hp
  constructor
  · intro k he hk
    have hl := locate_idxMem s.params (show 4 * k < 0x0E000000 by omega) hk
    refine ⟨_, windowWord s.params.idxMemBytes (idxByte s) (4 * k), readWord_place hl (by omega), ?_, fun i hi =>
      wordByte_windowWord _ _ _ hi⟩
    simp [readPlace, he]
  · intro n hn
    have hl := locate_canvas s.params (show n < 0x08000000 by omega) hn
    obtain ⟨c, hc, hcell⟩ := readPlace_canvas s n
    refine ⟨_, colourWord c, readWord_place hl (by omega), hc, colourWord_high c, fun he harea => ?_⟩
    rw [colourWord_colour, hcell he harea]

end Sys2Proof.Proofs

/-! ## LOADB (R103, R104) -/

namespace Sys2Proof.Machine

/-- A run of one step more takes the step first. -/
theorem core_run_succ {M : Host.Core} {s t : M.State} (h : M.step s = .next t) (n : Nat) :
    M.run (n + 1) s = M.run n t := by
  rw [Host.Core.run, h]

/-- The writes of `n` words, one after another from byte `o` of IN_MEM on. -/
def wordWrites (base o n : Nat) (word : Nat → Word) : List Event :=
  (List.range n).map fun k => wr base (0x01000000 + o + 4 * k) (word k)

theorem wordWrites_succ (base o n : Nat) (word : Nat → Word) :
    wordWrites base o (n + 1) word =
      wr base (0x01000000 + o) (word 0) :: wordWrites base (o + 4) n fun k => word (k + 1) := by
  simp only [wordWrites, List.range_succ_eq_map, List.map_cons, List.map_map, Nat.mul_zero, Nat.add_zero]
  refine congrArg _ (List.map_congr_left fun k _ => ?_)
  exact congrArg (wr base · _) (by omega)

/-- One write to IN_MEM of an idle block, as a step. -/
theorem step_wordWrite {s : State} (hp : s.params.legal = true) (hb : busy s = false) {o : Nat} (hal : o % 4 = 0)
    (ho : o < s.params.inMemBytes) {w : Word} {rest : List Event}
    (hev : s.host.events = wr s.params.base (0x01000000 + o) w :: rest) :
    step s = .next (storeWord { s with host := { s.host with events := rest } } o w) := by
  have hdrop : dropEvent s = { s with host := { s.host with events := rest } } := by rw [dropEvent, hev]; rfl
  have hstep : step s = runEvent (wr s.params.base (0x01000000 + o) w) (dropEvent s) := by rw [step, hev]
  rw [hstep, hdrop]
  exact writeWord_inMem (s := { s with host := { s.host with events := rest } }) hp hb hal ho w

/-- An idle block that runs word writes to IN_MEM ends with their bytes in it, and nothing else changed. -/
theorem run_wordWrites (n : Nat) {s : State} {o : Nat} {word : Nat → Word} (hp : s.params.legal = true)
    (hb : busy s = false) (hal : o % 4 = 0) (hfit : o + 4 * n ≤ s.params.inMemBytes)
    (hev : s.host.events = wordWrites s.params.base o n word) :
    ∃ t, core.run n s = .next t
      ∧ t = { s with inMem := t.inMem, host := { s.host with events := [] } }
      ∧ ∀ a, inByte t a = if o ≤ a ∧ a < o + 4 * n then wordByte (word ((a - o) / 4)) ((a - o) % 4) else inByte s a := by
  induction n generalizing s o word with
  | zero =>
    have hnil : s.host.events = [] := hev
    refine ⟨s, rfl, ?_, fun a => (if_neg (by omega)).symm⟩
    conv_rhs => rw [← hnil]
  | succ n ih =>
    rw [wordWrites_succ] at hev
    obtain ⟨t, hrun, hframe, hbytes⟩ := ih (o := o + 4) (word := fun k => word (k + 1))
      (s := storeWord { s with host := { s.host with events := wordWrites s.params.base (o + 4) n fun k => word (k + 1) } }
        o (word 0))
      hp hb (by omega) (show o + 4 + 4 * n ≤ s.params.inMemBytes by omega) rfl
    refine ⟨t, (core_run_succ (M := core) (step_wordWrite hp hb hal (by omega) hev) n).trans hrun, hframe, fun a => ?_⟩
    rw [hbytes a, inByte_storeWord]
    by_cases hlast : o + 4 ≤ a ∧ a < o + 4 + 4 * n
    · rw [if_pos hlast, if_pos (by omega), show (a - o) / 4 = (a - (o + 4)) / 4 + 1 by omega,
        show (a - o) % 4 = (a - (o + 4)) % 4 by omega]
    · rw [if_neg hlast]
      by_cases hfirst : o ≤ a ∧ a < o + 4
      · rw [if_pos (show _ ∧ _ ∧ a < s.params.inMemBytes by omega), if_pos (by omega),
          show (a - o) / 4 = 0 by omega, show (a - o) % 4 = a - o by omega]
      · rw [if_neg (by omega), if_neg (by omega)]
        rfl

/-- The k-th word of a LOADB, its missing bytes 0x00 (R104). -/
def loadedWord (bytes : List Byte) (k : Nat) : Word :=
  leWord (bytes.getD (4 * k) 0) (bytes.getD (4 * k + 1) 0) (bytes.getD (4 * k + 2) 0) (bytes.getD (4 * k + 3) 0)

theorem wordByte_loadedWord (bytes : List Byte) (k : Nat) :
    wordByte (loadedWord bytes (k / 4)) (k % 4) = bytes.getD k 0 := by
  have hi : k % 4 < 4 := Nat.mod_lt _ (by decide)
  have hk : 4 * (k / 4) + k % 4 = k := Nat.div_add_mod k 4
  rw [loadedWord, wordByte_leWord _ _ _ _ _ hi]
  conv_rhs => rw [← hk]
  generalize k % 4 = i at hi
  interval_cases i <;> rfl

end Sys2Proof.Machine

namespace Sys2Proof.Proofs

open Sys2Proof.Machine

/-- Settles O54: LOADB is a row of word writes, by induction on the words. -/
theorem loadBytes : Obligations.LoadBytes := by
  intro s o bytes hp hb hal hfit hev
  obtain ⟨t, hrun, hframe, hbytes⟩ := run_wordWrites (word := loadedWord bytes) _ hp hb hal hfit hev
  refine ⟨t, hrun, hframe, fun k hk => ?_, fun a ha => ?_⟩
  · rw [hbytes, if_pos (by omega), Nat.add_sub_cancel_left, wordByte_loadedWord]
  · rw [hbytes, if_neg (by omega)]

end Sys2Proof.Proofs

/-! ## The encoding of instructions (R91 to R93, R97) -/

namespace Sys2Proof

/-! A legal engine state for each row. -/

/-- The engine state right after INIT_TABLE (R132). -/
def startCtx (m : Nat) : CodeCtx where
  m := m
  nextFree := 2 ^ m + 2
  prevValid := false

/-- The engine state with a full code table. -/
def fullCtx (m : Nat) : CodeCtx where
  m := m
  nextFree := 4096
  prevValid := true

/-- What a legal engine state says: M is 2..8, NEXT_FREE is in its range, and at its start where no code is previous. -/
theorem CodeCtx.legal_iff (ctx : CodeCtx) :
    ctx.legal = true ↔ legalMinCode ctx.m = true ∧ 2 ^ ctx.m + 2 ≤ ctx.nextFree ∧ ctx.nextFree ≤ 4096
      ∧ (ctx.prevValid = false → ctx.nextFree = 2 ^ ctx.m + 2) := by
  simp only [CodeCtx.legal, Bool.and_eq_true, Bool.or_eq_true, decide_eq_true_eq, and_assoc]
  cases ctx.prevValid <;> simp

theorem legalMinCode_iff_mem {m : Nat} : legalMinCode m = true ↔ m ∈ [2, 3, 4, 5, 6, 7, 8] := by
  simp only [legalMinCode, Bool.and_eq_true, decide_eq_true_eq, List.mem_cons, List.not_mem_nil, or_false]
  omega

theorem startCtx_legal {m : Nat} (hm : legalMinCode m = true) : (startCtx m).legal = true := by
  have hpow := (Machine.pow_le_of_legalMinCode hm).2
  exact (startCtx m).legal_iff.mpr ⟨hm, Nat.le_refl _, show 2 ^ m + 2 ≤ 4096 by omega, fun _ => rfl⟩

theorem fullCtx_legal {m : Nat} (hm : legalMinCode m = true) : (fullCtx m).legal = true := by
  have hpow := (Machine.pow_le_of_legalMinCode hm).2
  exact (fullCtx m).legal_iff.mpr ⟨hm, show 2 ^ m + 2 ≤ 4096 by omega, Nat.le_refl _, nofun⟩

/-- Every well-formed instruction is of its row in some legal engine state. -/
theorem exists_legal_fits {i : Instr} (h : i.wf = true) : ∃ ctx : CodeCtx, ctx.legal = true ∧ i.fits ctx = true := by
  have hstart : (startCtx 2).legal = true := startCtx_legal rfl
  cases i with
  | softReset | canvasInit | lzwDecode | compose | dispose | abort | illegalOp0 | illegalOp7 | illegalOp8F low =>
    exact ⟨startCtx 2, hstart, rfl⟩
  | illegalRsvd op rsvd => exact ⟨startCtx 2, hstart, h⟩
  | lzwClear c =>
    obtain ⟨m, hm, hc⟩ := List.any_eq_true.mp h
    exact ⟨startCtx m, startCtx_legal (legalMinCode_iff_mem.mpr hm), hc⟩
  | lzwEnd c =>
    obtain ⟨m, hm, hc⟩ := List.any_eq_true.mp h
    exact ⟨startCtx m, startCtx_legal (legalMinCode_iff_mem.mpr hm), hc⟩
  | lzwFirst c => exact ⟨startCtx 8, startCtx_legal rfl, h⟩
  | lzwHit c =>
    have hc : c.toNat < 4096 := c.isLt
    by_cases hroot : c.toNat < 256
    · exact ⟨fullCtx 8, fullCtx_legal rfl, by simp [Instr.fits, fullCtx, hroot]⟩
    · exact ⟨fullCtx 2, fullCtx_legal rfl, by simp [Instr.fits, fullCtx, hc, show 6 ≤ c.toNat by omega]⟩
  | lzwKwkwk c =>
    have hlow : 6 ≤ c.toNat := of_decide_eq_true h
    have hc : c.toNat < 4096 := c.isLt
    refine ⟨{ m := 2, nextFree := c.toNat, prevValid := true }, ?_, ?_⟩
    · exact (CodeCtx.legal_iff _).mpr ⟨rfl, hlow, Nat.le_of_lt hc, nofun⟩
    · simp [Instr.fits, hlow, hc]
  | lzwInvalid c => exact ⟨startCtx 2, hstart, (Bool.and_true _).trans h⟩

/-- Every constructor's round trip (R91 to R93, R97). -/
theorem decode_encode (i : Instr) : Laws.RoundTrip.Statement i := by
  cases i with
  | softReset => exact Laws.RoundTrip.softReset
  | canvasInit => exact Laws.RoundTrip.canvasInit
  | lzwDecode => exact Laws.RoundTrip.lzwDecode
  | compose => exact Laws.RoundTrip.compose
  | dispose => exact Laws.RoundTrip.dispose
  | abort => exact Laws.RoundTrip.abort
  | illegalOp0 => exact Laws.RoundTrip.illegalOp0
  | illegalOp7 => exact Laws.RoundTrip.illegalOp7
  | illegalOp8F low => exact Laws.RoundTrip.illegalOp8F low
  | illegalRsvd op rsvd => exact Laws.RoundTrip.illegalRsvd op rsvd
  | lzwClear c => exact Laws.RoundTrip.lzwClear c
  | lzwEnd c => exact Laws.RoundTrip.lzwEnd c
  | lzwFirst c => exact Laws.RoundTrip.lzwFirst c
  | lzwHit c => exact Laws.RoundTrip.lzwHit c
  | lzwKwkwk c => exact Laws.RoundTrip.lzwKwkwk c
  | lzwInvalid c => exact Laws.RoundTrip.lzwInvalid c

/-! CMD words. -/

/-- A word with RSVD = 0 is the word of its OP (R91). -/
theorem eq_cmdWord_of_cmdRsvd {w : Word} (h : cmdRsvd w = 0) : w = cmdWord (cmdOp w) := by
  conv_lhs => rw [← cmdRsvd_append_cmdOp w, h]
  rfl

theorem decodeCmd_of_cmdRsvd {w : Word} (h : cmdRsvd w ≠ 0) : decodeCmd w = .illegalRsvd (cmdOp w) (cmdRsvd w) :=
  if_pos h

/-- The sixteen words with RSVD = 0. -/
theorem decodeCmd_cmdWord (op : BitVec 4) :
    encode (decodeCmd (cmdWord op)) = .cmd (cmdWord op) ∧ (decodeCmd (cmdWord op)).wf = true := by
  revert op
  decide

theorem encode_decodeCmd (w : Word) : encode (decodeCmd w) = .cmd w ∧ (decodeCmd w).wf = true := by
  by_cases h : cmdRsvd w = 0
  · rw [eq_cmdWord_of_cmdRsvd h]
    exact decodeCmd_cmdWord _
  · rw [decodeCmd_of_cmdRsvd h, encode, cmdRsvd_append_cmdOp]
    exact ⟨rfl, decide_eq_true h⟩

/-- A word decodes to the one well-formed instruction it is the encoding of (R92, R93). -/
theorem decodeCmd_eq_iff (w : Word) (i : Instr) : decodeCmd w = i ↔ i.wf = true ∧ encode i = .cmd w := by
  constructor
  · rintro rfl
    exact (encode_decodeCmd w).symm
  · rintro ⟨hwf, henc⟩
    obtain ⟨ctx, -, hfits⟩ := exists_legal_fits hwf
    have hdecode := decode_encode i ctx hfits
    rwa [henc] at hdecode

/-- The value of a word from its two fields (R91). -/
theorem toNat_append_op (rsvd : BitVec 28) (op : BitVec 4) :
    (rsvd ++ op : BitVec 32).toNat = 16 * rsvd.toNat + op.toNat := by
  rw [BitVec.toNat_append, ← Nat.shiftLeft_add_eq_or_of_lt op.isLt, Nat.shiftLeft_eq]
  omega

/-- The value of a word with OP in 8..15 (R93). -/
theorem toNat_cmdWord_high (low : BitVec 3) : (cmdWord (1#1 ++ low : BitVec 4)).toNat = 8 + low.toNat := by
  revert low
  decide

/-! LZW codes. -/

theorem encode_decodeCode (ctx : CodeCtx) (c : Code) : encode (decodeCode ctx c) = .code c := by
  rcases decodeCode_cases ctx c with
    ⟨-, hd⟩ | ⟨-, hd⟩ | ⟨-, -, hd⟩ | ⟨-, -, hd⟩ | ⟨-, -, -, -, hd⟩ | ⟨-, -, hd⟩ <;> rw [hd, encode]

/-- The engine state allows the row it puts a code in: with NEXT_FREE = 4096 a code cannot be above it (R97). -/
theorem decodeCode_fits (ctx : CodeCtx) (c : Code) : (decodeCode ctx c).fits ctx = true := by
  have hc : c.toNat < 4096 := c.isLt
  rcases decodeCode_cases ctx c with
    ⟨h, hd⟩ | ⟨h, hd⟩ | ⟨hprev, h, hd⟩ | ⟨hprev, h, hd⟩ | ⟨hprev, hlow, hnext, hopen, hd⟩ | ⟨hlow, h, hd⟩ <;>
    rw [hd]
  · simpa [Instr.fits] using h
  · simpa [Instr.fits] using h
  · simp [Instr.fits, hprev, h]
  · simpa [Instr.fits, hprev] using h
  · rw [hnext] at hlow
    simp [Instr.fits, hprev, hlow, hnext, hopen]
  · have habove : ctx.prevValid = true → ctx.nextFree < c.toNat := fun hprev => by
      have := h hprev
      omega
    cases hprev : ctx.prevValid
    · simp [Instr.fits, hprev, hlow]
    · simp [Instr.fits, hlow, habove hprev]

/-- An instruction of a row that a legal engine state allows is well formed. -/
theorem wf_of_fits {ctx : CodeCtx} (hl : ctx.legal = true) {i : Instr} (h : i.fits ctx = true) : i.wf = true := by
  obtain ⟨hm, -, -, -⟩ := ctx.legal_iff.mp hl
  obtain ⟨hpow, hpow'⟩ := Machine.pow_le_of_legalMinCode hm
  cases i with
  | softReset | canvasInit | lzwDecode | compose | dispose | abort | illegalOp0 | illegalOp7 | illegalOp8F low => rfl
  | illegalRsvd op rsvd => exact h
  | lzwClear c => exact List.any_eq_true.mpr ⟨ctx.m, legalMinCode_iff_mem.mp hm, h⟩
  | lzwEnd c => exact List.any_eq_true.mpr ⟨ctx.m, legalMinCode_iff_mem.mp hm, h⟩
  | lzwFirst c =>
    simp only [Instr.fits, Bool.and_eq_true, decide_eq_true_eq] at h
    exact decide_eq_true (by omega)
  | lzwHit c => rfl
  | lzwKwkwk c =>
    simp only [Instr.fits, Bool.and_eq_true, decide_eq_true_eq] at h
    exact decide_eq_true (by omega)
  | lzwInvalid c =>
    simp only [Instr.fits, Bool.and_eq_true, decide_eq_true_eq] at h
    exact decide_eq_true (by omega)

/-- A code decodes to the one instruction it encodes that is of a row the engine state allows (R97). -/
theorem decodeCode_eq_iff (ctx : CodeCtx) {c : Code} {i : Instr} (henc : encode i = .code c) :
    decodeCode ctx c = i ↔ i.fits ctx = true := by
  constructor
  · rintro rfl
    exact decodeCode_fits ctx c
  · intro hfits
    have hdecode := decode_encode i ctx hfits
    rwa [henc] at hdecode

end Sys2Proof

namespace Sys2Proof.Machine

open Claims (isIllegal)

/-- An illegal word is a request for the error of R225, with the word's own OP (R93, R221). -/
theorem exec_illegal {i : Instr} {w : Word} (hi : isIllegal i = true) (henc : encode i = .cmd w) (s : State) :
    exec i s = .next (request (cmdOp w) (illegalCommand w) s) := by
  have hword : ∀ op : BitVec 4, cmdOp (cmdWord op) = op := fun op => cmdOp_append 0 op
  cases i with
  | illegalOp0 | illegalOp7 => cases henc; rfl
  | illegalOp8F low => cases henc; rw [hword]; rfl
  | illegalRsvd op rsvd => cases henc; rw [cmdOp_append]; rfl
  | _ => cases hi

end Sys2Proof.Machine

namespace Sys2Proof.Proofs

open Sys2Proof.Machine

/-- Settles O1: a legal engine state for each row, and the round trip of each constructor. -/
theorem decodeOfEncode : Obligations.DecodeOfEncode :=
  fun i hwf => ⟨exists_legal_fits hwf, decode_encode i⟩

/-- Settles O2: uniqueness is the round trip the other way. -/
theorem encodeOfDecode : Obligations.EncodeOfDecode := by
  refine ⟨fun w => ⟨(encode_decodeCmd w).1, (encode_decodeCmd w).2, fun i hwf henc => ?_⟩, fun ctx c hl => ?_⟩
  · exact ((decodeCmd_eq_iff w i).mpr ⟨hwf, henc⟩).symm
  · have hfits := decodeCode_fits ctx c
    exact ⟨encode_decodeCode ctx c, wf_of_fits hl hfits, hfits, fun i henc h => ((decodeCode_eq_iff ctx henc).mpr h).symm⟩

/-- Settles O3: a word is of the row of the one well-formed instruction it is the encoding of. -/
theorem commandWordTable : Obligations.CommandWordTable := by
  intro w
  have fixed : ∀ (i : Instr) (v : Word), i.wf = true → encode i = .cmd v → (decodeCmd w = i ↔ w = v) := by
    intro i v hwf henc
    rw [decodeCmd_eq_iff, henc, Encoded.cmd.injEq, eq_comm (a := v)]
    exact and_iff_right hwf
  refine ⟨fixed _ _ rfl rfl, fixed _ _ rfl rfl, fixed _ _ rfl rfl, fixed _ _ rfl rfl, fixed _ _ rfl rfl,
    fixed _ _ rfl rfl, fixed _ _ rfl rfl, fixed _ _ rfl rfl, fun low => ?_, fun op rsvd => ?_⟩
  · rw [fixed (.illegalOp8F low) _ rfl rfl, ← BitVec.toNat_inj, toNat_cmdWord_high]
  · rw [decodeCmd_eq_iff, encode, Encoded.cmd.injEq, eq_comm (b := w), ← BitVec.toNat_inj, toNat_append_op]
    simp [Instr.wf]

/-- Settles O4: a code is of the row that the engine state allows it in. -/
theorem codeClassTable : Obligations.CodeClassTable := by
  intro ctx c hl
  obtain ⟨hm, hlow, hhigh, hfirst⟩ := ctx.legal_iff.mp hl
  have hpow := (pow_le_of_legalMinCode hm).2
  have hc : c.toNat < 4096 := c.isLt
  refine ⟨?_, ?_, ?_, ?_, ?_, ?_, fun hfull hclear hend => ?_⟩ <;> rw [decodeCode_eq_iff ctx rfl, Instr.fits]
  · simp
  · simp
  · simp
  · simp
  · simp only [Bool.and_eq_true, decide_eq_true_eq]
    exact ⟨fun ⟨⟨⟨hprev, _⟩, hnext⟩, hopen⟩ => ⟨hprev, hnext, hopen⟩,
      fun ⟨hprev, hnext, hopen⟩ => ⟨⟨⟨hprev, hnext ▸ hlow⟩, hnext⟩, hopen⟩⟩
  · cases hprev : ctx.prevValid
    · have := hfirst hprev
      simp only [Bool.not_false, Bool.true_or, Bool.and_true, decide_eq_true_eq, true_and, Bool.false_eq_true,
        false_and, or_false]
      omega
    · simp only [Bool.not_true, Bool.false_or, Bool.and_eq_true, decide_eq_true_eq, Bool.true_eq_false, false_and,
        true_and, false_or, and_iff_right_iff_imp]
      omega
  · cases hprev : ctx.prevValid
    · have := hfirst hprev
      omega
    · simp only [Bool.true_and, Bool.or_eq_true, decide_eq_true_eq, Bool.and_eq_true]
      omega

/-- Settles O5: the decoder runs on each. -/
theorem writtenOutWords : Obligations.WrittenOutWords := by
  unfold Obligations.WrittenOutWords
  decide

/-- Settles O25: accepted while idle, an illegal word raises its error. -/
theorem illegalCommands : Obligations.IllegalCommands := by
  intro i w s hi henc hb
  have he : s.eng = .idle := (busy_eq_false_iff s).mp hb
  rw [exec_illegal hi henc, request, if_neg (by simp [hb]), illegalCommand, raise, ← he]
  rfl

end Sys2Proof.Proofs

/-! ## Packed code streams (R95, R120) -/

namespace Sys2Proof

/-- The bits of a packed stream, code after code, before its last byte is filled up (R95). -/
def streamBits (codes : List (Nat × Code)) : List Bool := codes.flatMap fun wc => codeBits wc.1 wc.2

/-- The number of bits of a packed stream. -/
def bitCount (codes : List (Nat × Code)) : Nat := (codes.map Prod.fst).sum

@[simp] theorem bitCount_nil : bitCount [] = 0 := rfl

@[simp] theorem bitCount_cons (wc : Nat × Code) (codes : List (Nat × Code)) :
    bitCount (wc :: codes) = wc.1 + bitCount codes := by
  simp [bitCount]

@[simp] theorem bitCount_append (codes codes' : List (Nat × Code)) :
    bitCount (codes ++ codes') = bitCount codes + bitCount codes' := by
  simp [bitCount]

@[simp] theorem length_codeBits (width : Nat) (c : Code) : (codeBits width c).length = width := by
  simp [codeBits]

theorem codeBits_getD {width i : Nat} (c : Code) (hi : i < width) : (codeBits width c).getD i false = c.getLsbD i := by
  simp [codeBits, hi]

@[simp] theorem length_streamBits (codes : List (Nat × Code)) : (streamBits codes).length = bitCount codes := by
  simp [streamBits, bitCount, List.length_flatMap]

/-- Behind the codes before it, a code's bits lie in the stream least-significant first (R120). -/
theorem streamBits_getD (before after : List (Nat × Code)) {width i : Nat} (c : Code) (hi : i < width) :
    (streamBits (before ++ (width, c) :: after)).getD (bitCount before + i) false = c.getLsbD i := by
  have hsplit : streamBits (before ++ (width, c) :: after)
      = streamBits before ++ (codeBits width c ++ streamBits after) := by
    simp [streamBits]
  rw [hsplit, List.getD_append_right _ _ _ _ (by simp), length_streamBits, Nat.add_sub_cancel_left,
    List.getD_append _ _ _ _ (by simpa using hi), codeBits_getD c hi]

/-! Bytes. -/

theorem byteOfBits_getLsbD (bits : List Bool) {j : Nat} (hj : j < 8) :
    (byteOfBits bits).getLsbD j = bits.getD j false := by
  rw [byteOfBits, BitVec.getLsbD_ofNat, Machine.codeOfBits_testBit]
  simp [hj, List.getD_eq_getElem?_getD]

@[simp] theorem length_packBits (n : Nat) (bits : List Bool) : (packBits n bits).length = n := by
  induction n generalizing bits with
  | zero => rfl
  | succ n ih => rw [packBits, List.length_cons, ih]

/-- Bit j of byte k of a packed stream is its bit 8k + j. -/
theorem packBits_getLsbD {n k j : Nat} (bits : List Bool) (hk : k < n) (hj : j < 8) :
    ((packBits n bits).getD k 0).getLsbD j = bits.getD (8 * k + j) false := by
  induction n generalizing bits k with
  | zero => omega
  | succ n ih =>
    cases k with
    | zero => rw [packBits, List.getD_cons_zero, byteOfBits_getLsbD bits hj, Nat.mul_zero, Nat.zero_add]
    | succ k =>
      rw [packBits, List.getD_cons_succ, ih (bits.drop 8) (by omega)]
      simp [List.getD_eq_getElem?_getD, List.getElem?_drop, show 8 + (8 * k + j) = 8 * (k + 1) + j by omega]

theorem length_packCodes (codes : List (Nat × Code)) : (packCodes codes).length = (bitCount codes + 7) / 8 := by
  rw [packCodes, length_packBits]
  exact congrArg (fun n => (n + 7) / 8) (length_streamBits codes)

/-- Bit p of the packed bytes is bit p of the stream. -/
theorem packCodes_bit (codes : List (Nat × Code)) {p : Nat} (hp : p < bitCount codes) :
    ((packCodes codes).getD (p / 8) 0).getLsbD (p % 8) = (streamBits codes).getD p false := by
  have hlen := length_packCodes codes
  have hbyte : ((packBits (packCodes codes).length (streamBits codes)).getD (p / 8) 0).getLsbD (p % 8)
      = (streamBits codes).getD (8 * (p / 8) + p % 8) false :=
    packBits_getLsbD _ (by omega) (Nat.mod_lt _ (by decide))
  rw [hlen, ← length_streamBits, Nat.div_add_mod] at hbyte
  exact hbyte

end Sys2Proof

namespace Sys2Proof.Machine

/-- The latched stream is the packed bytes of the codes (R95), and its bits can be counted in BIT_POS. -/
structure HoldsCodes (s : State) (codes : List (Nat × Code)) : Prop where
  length_eq : s.indexLatch.llen.toNat = (packCodes codes).length
  countable : 8 * s.indexLatch.llen.toNat < 2 ^ 32
  bytes : ∀ k, k < s.indexLatch.llen.toNat → inByte s (s.indexLatch.lbase.toNat + k) = (packCodes codes).getD k 0

/-- The cursor stands behind the codes `before`, and the engine reads at the width of the next one. -/
structure AtCode (s : State) (before : List (Nat × Code)) (width : Nat) : Prop where
  cursor : s.bitPos.toNat = bitCount before
  width_eq : s.lzw.width.toNat = width

theorem HoldsCodes.bitCount_le {s : State} {codes : List (Nat × Code)} (h : HoldsCodes s codes) :
    bitCount codes ≤ 8 * s.indexLatch.llen.toNat := by
  have := h.length_eq
  rw [length_packCodes] at this
  omega

theorem HoldsCodes.inBit_eq {s : State} {codes : List (Nat × Code)} (h : HoldsCodes s codes) {p : Nat}
    (hp : p < bitCount codes) : inBit s p = (streamBits codes).getD p false := by
  have := h.bitCount_le
  rw [inBit, h.bytes _ (by omega), packCodes_bit codes hp]

variable {s : State} {before after : List (Nat × Code)} {width : Nat} {c : Code}

/-- The whole code is in the stream. -/
theorem HoldsCodes.width_le_bitsLeft (h : HoldsCodes s (before ++ (width, c) :: after)) (hat : AtCode s before width) :
    s.lzw.width.toNat ≤ bitsLeft s := by
  have hle := h.bitCount_le
  rw [bitCount_append, bitCount_cons] at hle
  rw [bitsLeft, hat.cursor, hat.width_eq]
  omega

/-- NEXTCODE reads the code that was packed (R120). -/
theorem HoldsCodes.codeAtCursor_eq (h : HoldsCodes s (before ++ (width, c) :: after)) (hat : AtCode s before width)
    (hc : c.toNat < 2 ^ width) : codeAtCursor s = c := by
  refine BitVec.eq_of_getLsbD_eq fun i hi => ?_
  rw [codeAtCursor_bit s hi, hat.cursor, hat.width_eq]
  by_cases hiw : i < width
  · have hcount : bitCount before + i < bitCount (before ++ (width, c) :: after) := by
      rw [bitCount_append, bitCount_cons]
      omega
    rw [h.inBit_eq hcount, streamBits_getD before after c hiw, decide_eq_true hiw, Bool.true_and]
  · have hbit : c.getLsbD i = false :=
      Nat.testBit_lt_two_pow (Nat.lt_of_lt_of_le hc (Nat.pow_le_pow_right (by decide) (by omega)))
    rw [hbit, decide_eq_false hiw, Bool.false_and]

/-- NEXTCODE leaves the cursor behind the code, and the width as it was. -/
theorem HoldsCodes.atCode_advanceCursor (h : HoldsCodes s (before ++ (width, c) :: after))
    (hat : AtCode s before width) : AtCode (advanceCursor s) (before ++ [(width, c)]) width := by
  have hbits := h.width_le_bitsLeft hat
  have hcount := h.countable
  unfold bitsLeft at hbits
  refine ⟨?_, hat.width_eq⟩
  rw [bitPos_advanceCursor s (by omega), hat.cursor, hat.width_eq]
  simp

end Sys2Proof.Machine

namespace Sys2Proof.Proofs

open Sys2Proof.Machine

/-- Settles O7: the code at the cursor is the one packed there, and its bits are all in the stream. -/
theorem packedCodesReadBack : Obligations.PackedCodesReadBack := by
  intro before after width c s hcodes hlen hcount hbytes hpos hwidth
  have hs : HoldsCodes s (before ++ (width, c) :: after) := ⟨hlen, hcount, hbytes⟩
  have hat : AtCode s before width := ⟨hpos, hwidth⟩
  obtain ⟨-, -, hc⟩ := hcodes (width, c) (by simp)
  refine ⟨advanceCursor s, ?_, ?_⟩
  · rw [nextCode, if_neg (Nat.not_lt.mpr (hs.width_le_bitsLeft hat)), hs.codeAtCursor_eq hat hc]
  · rw [(hs.atCode_advanceCursor hat).cursor, bitCount_append, hpos]
    simp [bitCount]

end Sys2Proof.Proofs

/-! ## LZW_DECODE of an uncompressed stream (R130 to R135, R144) -/

namespace Sys2Proof.Machine

open Claims (plainCodes legalSize)

/-- The ClearCode of minCodeSize `m`, at the width of a table that holds roots only (R98, R133). -/
def clearEntry (m : Nat) : Nat × Code := (m + 1, BitVec.ofNat 12 (2 ^ m))

/-- The root code of an index, at the same width (R135). -/
def rootEntry (m : Nat) (v : Byte) : Nat × Code := (m + 1, v.setWidth 12)

theorem plainCodes_append_cons (m : Nat) (done rest : List Byte) (v : Byte) :
    plainCodes m (done ++ v :: rest) = plainCodes m done ++ clearEntry m :: rootEntry m v :: plainCodes m rest := by
  simp [plainCodes, clearEntry, rootEntry]

theorem toNat_clearCode {m : Nat} (hm : legalMinCode m = true) : (BitVec.ofNat 12 (2 ^ m) : Code).toNat = 2 ^ m := by
  have hpow := (pow_le_of_legalMinCode hm).2
  exact (BitVec.toNat_ofNat _ _).trans (Nat.mod_eq_of_lt (by omega))

theorem toNat_rootCode (v : Byte) : (v.setWidth 12 : Code).toNat = v.toNat := by
  rw [BitVec.toNat_setWidth]
  omega

theorem HoldsCodes.of_eq {s t : State} {codes : List (Nat × Code)} (h : HoldsCodes s codes)
    (hlatch : t.indexLatch = s.indexLatch) (hmem : t.inMem = s.inMem) : HoldsCodes t codes := by
  obtain ⟨hlen, hcount, hbytes⟩ := h
  constructor <;> simp only [hlatch, inByte, hmem] <;> assumption

theorem AtCode.of_eq {s t : State} {before : List (Nat × Code)} {width width' : Nat} (h : AtCode s before width)
    (hpos : t.bitPos = s.bitPos) (hwidth : t.lzw.width.toNat = width') : AtCode t before width' :=
  ⟨hpos ▸ h.cursor, hwidth⟩

/-- The decode of `pixels`, left to the Engine: the codes `before` are read and the indices `done` stored. -/
structure PlainDecode (m : Nat) (pixels : List Byte) (before : List (Nat × Code)) (done : List Byte) (t : State) :
    Prop where
  eng_lzw : t.eng = .lzw
  no_abort : t.status.abortReq = false
  no_event : t.host.events = []
  holds : HoldsCodes t (plainCodes m pixels)
  at_code : AtCode t before (m + 1)
  min_code : t.indexLatch.lm.toNat = m
  output : outLength t = pixels.length
  countable : pixels.length < 2 ^ 32
  count : t.pixCount.toNat = done.length
  stored : ∀ k, k < done.length → idxByte t k = done.getD k 0

variable {m : Nat} {pixels done : List Byte} {before after : List (Nat × Code)} {t : State}

/-- With a code left to read, a step runs the code's class (R141). -/
theorem PlainDecode.step_eq (h : PlainDecode m pixels before done t) {c : Code}
    (hcodes : plainCodes m pixels = before ++ (m + 1, c) :: after) (hc : c.toNat < 2 ^ (m + 1)) :
    step t = exec (decodeCode (codeCtx t) c) (advanceCursor t) := by
  have hholds := hcodes ▸ h.holds
  rw [step_of_no_event h.no_event, engineStep_of_lzw h.eng_lzw h.no_abort,
    lzwStep_of_code (hholds.width_le_bitsLeft h.at_code), hholds.codeAtCursor_eq h.at_code hc]

/-- While indices are missing the decode is not complete. -/
theorem PlainDecode.finishIfComplete_eq (h : PlainDecode m pixels before done t) (hopen : done.length < pixels.length) :
    finishIfComplete t = t :=
  finishIfComplete_open (by rw [h.count, h.output]; omega)

/-- The ClearCode before a pixel initialises the table, which stays at width m + 1 (R133). -/
theorem PlainDecode.clear (h : PlainDecode m pixels before done t) (hm : legalMinCode m = true)
    (hcodes : plainCodes m pixels = before ++ clearEntry m :: after) (hopen : done.length < pixels.length) :
    ∃ u, step t = .next u ∧ u.lzw.prevValid = false ∧ PlainDecode m pixels (before ++ [clearEntry m]) done u := by
  have hclear := toNat_clearCode hm
  have hwidth : (initTable (advanceCursor t)).lzw.width.toNat = m + 1 := by
    rw [width_initTable (s := advanceCursor t) (by rw [advanceCursor_indexLatch, h.min_code]; exact hm),
      advanceCursor_indexLatch, h.min_code]
  have hnext : PlainDecode m pixels (before ++ [clearEntry m]) done (initTable (advanceCursor t)) :=
    { eng_lzw := h.eng_lzw
      no_abort := h.no_abort
      no_event := h.no_event
      holds := h.holds.of_eq rfl rfl
      at_code := ((hcodes ▸ h.holds).atCode_advanceCursor h.at_code).of_eq rfl hwidth
      min_code := h.min_code
      output := h.output
      countable := h.countable
      count := h.count
      stored := h.stored }
  have hclass : decodeCode (codeCtx t) (BitVec.ofNat 12 (2 ^ m)) = .lzwClear (BitVec.ofNat 12 (2 ^ m)) :=
    (decodeCode_eq_iff _ rfl).mpr (decide_eq_true (by rw [hclear]; exact congrArg (2 ^ ·) h.min_code.symm))
  refine ⟨initTable (advanceCursor t), ?_, rfl, hnext⟩
  rw [h.step_eq hcodes (hclear.trans_lt (Nat.pow_lt_pow_right (by decide) (Nat.lt_succ_self m))), hclass]
  exact congrArg _ (hnext.finishIfComplete_eq hopen)

/-- The root code behind a ClearCode stores its pixel (R135, R142). -/
theorem PlainDecode.root (h : PlainDecode m pixels before done t) {v : Byte} (hv : v.toNat < 2 ^ m)
    (hprev : t.lzw.prevValid = false) (hcodes : plainCodes m pixels = before ++ rootEntry m v :: after)
    (hopen : done.length < pixels.length) :
    ∃ u, step t = .next (finishIfComplete u) ∧ PlainDecode m pixels (before ++ [rootEntry m v]) (done ++ [v]) u := by
  have hroot := toNat_rootCode v
  have hclass : decodeCode (codeCtx t) (v.setWidth 12) = .lzwFirst (v.setWidth 12) :=
    (decodeCode_eq_iff _ rfl).mpr (by simp [Instr.fits, codeCtx, hprev, h.min_code, hroot, hv])
  have hemitted : [(v.setWidth 12 : Code).setWidth 8] = [v] := by simp
  have hframe := (onlyDecoder_emit [v] (advanceCursor t)).setPrev (v.setWidth 12)
  have hlen : outLength (advanceCursor t) = pixels.length := h.output
  have hcount : (advanceCursor t).pixCount.toNat = done.length := h.count
  have hat := (hcodes ▸ h.holds).atCode_advanceCursor h.at_code
  refine ⟨setPrev (v.setWidth 12) (emit [v] (advanceCursor t)), ?_, ?_⟩
  · rw [h.step_eq hcodes (by rw [hroot, Nat.pow_succ]; omega), hclass, ← hemitted]
    rfl
  · exact {
      eng_lzw := (hframe.proj State.eng).trans h.eng_lzw
      no_abort := (hframe.proj (·.status.abortReq)).trans h.no_abort
      no_event := (hframe.proj (·.host.events)).trans h.no_event
      holds := h.holds.of_eq (hframe.proj State.indexLatch) (hframe.proj State.inMem)
      at_code := hat.of_eq (hframe.proj State.bitPos) (by rw [setPrev_lzw, emit_eq]; exact h.at_code.width_eq)
      min_code := (hframe.proj (·.indexLatch.lm.toNat)).trans h.min_code
      output := (hframe.proj outLength).trans h.output
      countable := h.countable
      count := by
        have hsmall := h.countable
        rw [setPrev_pixCount, pixCount_emit [v] (by omega) (by omega), hlen, hcount, List.length_append,
          List.length_singleton]
        omega
      stored := fun k hk => by
        have hsmall := h.countable
        rw [List.length_append, List.length_singleton] at hk
        refine (idxByte_emit [v] (s := advanceCursor t) (by omega) (by omega) k).trans ?_
        by_cases hlast : k = done.length
        · rw [if_pos (by rw [List.length_singleton]; omega), hcount, hlast]
          simp
        · rw [if_neg (by omega), List.getD_append _ _ _ _ (by omega)]
          exact h.stored k (by omega) }

/-- The steps of the codes of `rest`: each pixel is stored in two steps. -/
theorem PlainDecode.run (hm : legalMinCode m = true) (hsmall : ∀ v ∈ pixels, v.toNat < 2 ^ m) (rest : List Byte)
    (hpixels : pixels = done ++ rest) (h : PlainDecode m pixels (plainCodes m done) done t) :
    ∃ z, core.run (2 * rest.length) (finishIfComplete t) = .next (finishIfComplete z)
      ∧ PlainDecode m pixels (plainCodes m pixels) pixels z := by
  induction rest generalizing done t with
  | nil =>
    rw [List.append_nil] at hpixels
    subst hpixels
    exact ⟨t, rfl, h⟩
  | cons v rest ih =>
    have hcodes := hpixels ▸ plainCodes_append_cons m done rest v
    have hopen : done.length < pixels.length := by simp [hpixels]
    have hread : plainCodes m (done ++ [v]) = plainCodes m done ++ [clearEntry m] ++ [rootEntry m v] := by
      simp [plainCodes, clearEntry, rootEntry]
    obtain ⟨u, hclear, hprev, hu⟩ := h.clear hm hcodes hopen
    obtain ⟨w, hroot, hw⟩ := hu.root (hsmall v (by simp [hpixels])) hprev (by simpa using hcodes) hopen
    obtain ⟨z, hrun, hz⟩ := ih (by simpa using hpixels) (hread ▸ hw)
    refine ⟨z, ?_, hz⟩
    rw [h.finishIfComplete_eq hopen, List.length_cons, Nat.mul_succ]
    exact (core_run_succ (M := core) hclear _).trans ((core_run_succ (M := core) hroot _).trans hrun)

/-- A decode with every index stored finishes with the pixels in IDX_MEM (R144). -/
theorem PlainDecode.finished (h : PlainDecode m pixels before pixels t) :
    (finishIfComplete t).eng = .idle ∧ (finishIfComplete t).status.done = true
      ∧ (finishIfComplete t).status.err = false ∧ (finishIfComplete t).status.idxValid = true
      ∧ ∀ k, k < pixels.length → idxByte (finishIfComplete t) k = pixels.getD k 0 := by
  rw [finishIfComplete_complete (h.count.trans h.output.symm)]
  exact ⟨rfl, rfl, rfl, rfl, h.stored⟩

/-! Acceptance. -/

theorem frameW_toNat (r : ConfigRegs) : (frameW r).toNat = r.frameSize.toNat % 65536 := by
  simp [frameW, BitVec.extractLsb'_toNat]

theorem frameH_toNat (r : ConfigRegs) : (frameH r).toNat = r.frameSize.toNat / 65536 := by
  have := r.frameSize.isLt
  simp only [frameH, BitVec.extractLsb'_toNat, Nat.shiftRight_eq_div_pow]
  omega

/-- A frame size is legal by the model's test exactly when it is by R33. -/
theorem sizeLegal_frame (s : State) (h : legalSize s.params.maxDim s.params.idxMemBytes
    (s.regs.frameSize.toNat % 65536) (s.regs.frameSize.toNat / 65536)) :
    sizeLegal s.params.maxDim s.params.idxMemBytes (frameW s.regs).toNat (frameH s.regs).toNat = true := by
  obtain ⟨hw, hwmax, hh, hhmax, harea⟩ := h
  rw [sizeLegal_iff, frameW_toNat, frameH_toNat]
  exact ⟨hw, hh, hwmax, hhmax, harea⟩

/-- The state in which an accepted LZW_DECODE starts (R130). -/
def startLzw (s : State) : State := { initTable (latchStream (beginLzw (accept 0x3 s))) with eng := .lzw }

/-- An LZW_DECODE whose three checks pass, while idle (R130). -/
theorem exec_lzwDecode_of_checks {s : State} (hb : busy s = false)
    (hsize : sizeLegal s.params.maxDim s.params.idxMemBytes (frameW s.regs).toNat (frameH s.regs).toNat = true)
    (hmin : legalMinCode s.regs.lzwMin.toNat = true)
    (hrange : s.regs.inBase.toNat + s.regs.inLen.toNat ≤ s.params.inMemBytes) :
    exec .lzwDecode s = .next (startLzw s) := by
  have hacc : acceptLzw (accept 0x3 s) = startLzw s := by
    unfold acceptLzw
    rw [if_neg (by simp [hsize]), if_neg (by simp [hmin]), if_neg (by simpa using hrange)]
    rfl
  show Host.Outcome.next (request 0x3 acceptLzw s) = _
  rw [request, if_neg (by simp [hb]), hacc]

end Sys2Proof.Machine

namespace Sys2Proof.Proofs

open Sys2Proof.Machine

/-- Settles O42: the acceptance starts the decode of the pixels, and each pixel takes its ClearCode and its root. -/
theorem plainStreamDecodes : Obligations.PlainStreamDecodes := by
  intro s m pixels ⟨hidle, habort, hevents⟩ hp hm2 hm8 hmin hsmall hsize hpixels hlen hrange hbytes
  have hm : legalMinCode m = true := by simp [legalMinCode, hm2, hm8]
  obtain ⟨hin, hidx, -⟩ := Params.capacities hp
  have hsize' := sizeLegal_frame s hsize
  obtain ⟨hw, -, hh, -, harea⟩ := hsize
  have hfits : pixels.length ≤ s.params.idxMemBytes := hpixels ▸ harea
  have hpos : 0 < pixels.length := hpixels ▸ Nat.mul_pos hw hh
  have hwidth : (startLzw s).lzw.width.toNat = m + 1 :=
    (width_initTable (s := latchStream (beginLzw (accept 0x3 s))) (hmin ▸ hm)).trans (congrArg (· + 1) hmin)
  have hstart : PlainDecode m pixels (Claims.plainCodes m []) [] (startLzw s) :=
    { eng_lzw := rfl
      no_abort := habort
      no_event := hevents
      holds := ⟨hlen, show 8 * s.regs.inLen.toNat < 2 ^ 32 by omega, hbytes⟩
      at_code := ⟨rfl, hwidth⟩
      min_code := hmin
      output := by
        rw [hpixels, ← frameW_toNat, ← frameH_toNat]
        rfl
      countable := by omega
      count := rfl
      stored := nofun }
  obtain ⟨z, hrun, hz⟩ := hstart.run hm hsmall pixels rfl
  rw [hstart.finishIfComplete_eq hpos] at hrun
  exact ⟨startLzw s, _, exec_lzwDecode_of_checks ((busy_eq_false_iff s).mpr hidle) hsize' (hmin ▸ hm) hrange, hrun,
    hz.finished⟩

end Sys2Proof.Proofs

/-! ## The BitReader and the LZW step (R120 to R124, R141, R146) -/

namespace Sys2Proof.Machine

/-! IN_MEM enters an LZW step only through the stream bits of the code at the cursor. -/

/-- The same state with other contents of IN_MEM. -/
def withInMem (m : Store Byte) (s : State) : State := { s with inMem := m }

@[simp] theorem withInMem_pixCount (m : Store Byte) (s : State) : (withInMem m s).pixCount = s.pixCount := rfl

@[simp] theorem withInMem_lzw (m : Store Byte) (s : State) : (withInMem m s).lzw = s.lzw := rfl

@[simp] theorem advanceCursor_withInMem (m : Store Byte) (s : State) :
    advanceCursor (withInMem m s) = withInMem m (advanceCursor s) := rfl

@[simp] theorem raise_withInMem (m : Store Byte) (e : ErrorCode) (i0 i1 : Word) (s : State) :
    raise e i0 i1 (withInMem m s) = withInMem m (raise e i0 i1 s) := rfl

@[simp] theorem initTable_withInMem (m : Store Byte) (s : State) :
    initTable (withInMem m s) = withInMem m (initTable s) := rfl

@[simp] theorem setPrev_withInMem (m : Store Byte) (c : Code) (s : State) :
    setPrev c (withInMem m s) = withInMem m (setPrev c s) := rfl

@[simp] theorem endByAbort_withInMem (m : Store Byte) (s : State) :
    endByAbort (withInMem m s) = withInMem m (endByAbort s) := rfl

@[simp] theorem strOf_withInMem (m : Store Byte) (s : State) (c : Code) : strOf (withInMem m s) c = strOf s c :=
  strChain_congr (s := s) (t := withInMem m s) (fun _ => rfl) 4096 c.toNat

@[simp] theorem emitIndex_withInMem (m : Store Byte) (v : Byte) (s : State) :
    emitIndex v (withInMem m s) = withInMem m (emitIndex v s) := by
  unfold emitIndex
  simp only [apply_ite (withInMem m)]
  rfl

@[simp] theorem emit_withInMem (m : Store Byte) (str : List Byte) (s : State) :
    emit str (withInMem m s) = withInMem m (emit str s) := by
  induction str generalizing s with
  | nil => rfl
  | cons v vs ih => rw [emit, emitIndex_withInMem, ih, emit]

@[simp] theorem addSlot_withInMem (m : Store Byte) (q : Code) (v : Byte) (s : State) :
    addSlot q v (withInMem m s) = withInMem m (addSlot q v s) := by
  unfold addSlot
  simp only [apply_ite (withInMem m)]
  rfl

@[simp] theorem finishIfComplete_withInMem (m : Store Byte) (s : State) :
    finishIfComplete (withInMem m s) = withInMem m (finishIfComplete s) := by
  unfold finishIfComplete
  simp only [apply_ite (withInMem m)]
  rfl

/-- No code class reads IN_MEM (R133 to R140). -/
theorem exec_code_withInMem (m : Store Byte) (ctx : CodeCtx) (c : Code) (s : State) :
    exec (decodeCode ctx c) (withInMem m s) = Claims.mapNext (withInMem m) (exec (decodeCode ctx c) s) := by
  rcases decodeCode_cases ctx c with ⟨-, hd⟩ | ⟨-, hd⟩ | ⟨-, -, hd⟩ | ⟨-, -, hd⟩ | ⟨-, -, -, -, hd⟩ | ⟨-, -, hd⟩ <;>
    rw [hd]
  · simp [exec, execLzwClear, Claims.mapNext]
  · simp [exec, execLzwEnd, Claims.mapNext]
  · simp [exec, execLzwFirst, Claims.mapNext]
  · simp [exec, execLzwHit, Claims.mapNext]
  · simp [exec, execLzwKwkwk, Claims.mapNext]
  · simp [exec, execLzwInvalid, Claims.mapNext]

/-- A busy Engine asked to abort ends its operation instead of stepping (R230). -/
theorem engineStep_of_abort {s : State} (hb : busy s = true) (ha : s.status.abortReq = true) :
    engineStep s = .next (endByAbort s) := by
  rw [engineStep, hb, ha]
  rfl

/-- `m` holds the bytes of the latched stream that IN_MEM holds (R124). -/
def AgreesOnStream (s : State) (m : Store Byte) : Prop :=
  ∀ a, s.indexLatch.lbase.toNat ≤ a → a < s.indexLatch.lbase.toNat + s.indexLatch.llen.toNat →
    m.get (Config.unwrittenByte .inMem) a = inByte s a

theorem AgreesOnStream.inBit_eq {s : State} {m : Store Byte} (h : AgreesOnStream s m) {p : Nat}
    (hp : p < 8 * s.indexLatch.llen.toNat) : inBit (withInMem m s) p = inBit s p :=
  congrArg (·.getLsbD (p % 8)) (h (s.indexLatch.lbase.toNat + p / 8) (by omega) (by omega))

/-- A code that is left in the stream lies inside it, so the stream's bytes determine it. -/
theorem AgreesOnStream.codeAtCursor_eq {s : State} {m : Store Byte} (h : AgreesOnStream s m)
    (hbits : s.lzw.width.toNat ≤ bitsLeft s) : codeAtCursor (withInMem m s) = codeAtCursor s := by
  unfold bitsLeft at hbits
  refine congrArg (fun bits => BitVec.ofNat 12 (codeOfBits bits)) (List.map_congr_left fun i hi => ?_)
  have hiw : i < s.lzw.width.toNat := List.mem_range.mp hi
  exact h.inBit_eq (p := s.bitPos.toNat + i) (by omega)

theorem AgreesOnStream.lzwStep_eq {s : State} {m : Store Byte} (h : AgreesOnStream s m) :
    lzwStep (withInMem m s) = Claims.mapNext (withInMem m) (lzwStep s) := by
  rcases Nat.lt_or_ge (bitsLeft s) s.lzw.width.toNat with hb | hb
  · rw [lzwStep_of_exhausted hb]
    exact lzwStep_of_exhausted (s := withInMem m s) hb
  · rw [lzwStep_of_code hb, lzwStep_of_code (s := withInMem m s) hb, h.codeAtCursor_eq hb, advanceCursor_withInMem]
    exact exec_code_withInMem m (codeCtx s) (codeAtCursor s) (advanceCursor s)

end Sys2Proof.Machine

namespace Sys2Proof.Proofs

open Sys2Proof.Machine

/-- Settles O9: an end by abort does not read IN_MEM, and an LZW step reads from it only the code at the cursor. -/
theorem streamOutsideIrrelevant : Obligations.StreamOutsideIrrelevant := by
  intro s m he hagree
  cases ha : s.status.abortReq with
  | true =>
    have hb : busy s = true := by simp [busy, he]
    rw [engineStep_of_abort hb ha]
    exact (engineStep_of_abort (s := withInMem m s) hb ha).trans (congrArg _ (endByAbort_withInMem m s))
  | false =>
    rw [engineStep_of_lzw he ha]
    exact (engineStep_of_lzw (s := withInMem m s) he ha).trans (AgreesOnStream.lzwStep_eq hagree)

/-- Settles O6: the bits of the code at the cursor, and where `advanceCursor` leaves BIT_POS. -/
theorem nextCodeBits : Obligations.NextCodeBits := by
  intro s hwidth hinside hcount
  have hbits : s.lzw.width.toNat ≤ bitsLeft s := by
    unfold bitsLeft
    omega
  refine ⟨codeAtCursor s, advanceCursor s, if_neg (Nat.not_lt.mpr hbits), fun i hi => ?_, codeAtCursor_lt s,
    bitPos_advanceCursor s (by omega), rfl⟩
  rw [codeAtCursor_bit s (by omega), decide_eq_true hi, Bool.true_and, inBit]

end Sys2Proof.Proofs

namespace Sys2Proof.Machine

/-- NEXTCODE reads nothing exactly when fewer bits remain than WIDTH (R121). -/
theorem nextCode_eq_none_iff (s : State) : nextCode s = none ↔ bitsLeft s < s.lzw.width.toNat := by
  simp [nextCode]

/-- WIDTH is 3 to 12 while LZW_DECODE runs (R98, R122). -/
theorem LzwRunning.width_bounds {s : State} (hs : LzwRunning s) :
    3 ≤ s.lzw.width.toNat ∧ s.lzw.width.toNat ≤ 12 := by
  have hmin := hs.min_code
  simp only [legalMinCode, Bool.and_eq_true, decide_eq_true_eq] at hmin
  rw [hs.width_scheduled, scheduledWidth]
  omega

/-- BIT_POS can count the bits of the stream while LZW_DECODE runs (R124). -/
theorem LzwRunning.stream_countable {s : State} (hs : LzwRunning s) : 8 * s.indexLatch.llen.toNat < 2 ^ 32 := by
  have hcap := (Params.capacities hs.params_legal).1
  have hstream := hs.stream_inside
  omega

/-- A code that is left in the stream is read, and the cursor moves past it (R120, R122). -/
theorem LzwRunning.bitPos_advanceCursor {s : State} (hs : LzwRunning s) (hbits : s.lzw.width.toNat ≤ bitsLeft s) :
    (Machine.advanceCursor s).bitPos.toNat = s.bitPos.toNat + s.lzw.width.toNat := by
  have hcount := hs.stream_countable
  have hcursor := hs.cursor_inside
  unfold bitsLeft at hbits
  exact Machine.bitPos_advanceCursor s (by omega)

/-- No code class moves BIT_POS: it ends the operation or leaves the cursor, the latch and ENG_STATE as they are. -/
theorem CodeFrame.idle_or_cursor_kept {s t : State} (h : CodeFrame s t) :
    t.eng = .idle ∨ (t.eng = s.eng ∧ t.bitPos = s.bitPos ∧ t.indexLatch = s.indexLatch) := by
  rcases h with ⟨e, i0, i1, rfl⟩ | ⟨u, hu, rfl⟩
  · exact .inl rfl
  · unfold finishIfComplete
    split
    · exact .inl rfl
    · exact .inr ⟨hu.proj State.eng, hu.proj State.bitPos, hu.proj State.indexLatch⟩

end Sys2Proof.Machine

namespace Sys2Proof.Proofs

open Sys2Proof.Machine

/-- Settles O8: the test of NEXTCODE, and the two detail words of the error it raises. -/
theorem exhaustedStream : Obligations.ExhaustedStream := by
  intro s he ha ⟨_, hrunning⟩
  have hs := hrunning he
  refine ⟨nextCode_eq_none_iff s, fun hfew => ⟨raiseExhausted s, ?_, rfl, ?_⟩⟩
  · rw [engineStep_of_lzw he ha, lzwStep_of_exhausted hfew]
  · have hlt : bitsLeft s < 2 ^ 32 := Nat.lt_of_le_of_lt (Nat.sub_le _ _) hs.stream_countable
    have hinfo : (raiseExhausted s).errInfo0.toNat = 8 * s.indexLatch.llen.toNat - s.bitPos.toNat :=
      (BitVec.toNat_ofNat _ _).trans (Nat.mod_eq_of_lt hlt)
    obtain ⟨-, hwidth⟩ := hs.width_bounds
    exact ⟨hinfo, by omega⟩

/-- Settles O40: NEXTCODE moves the cursor by WIDTH, and the code's class moves it no further. -/
theorem lzwStepProgress : Obligations.LzwStepProgress := by
  intro s ⟨_, hrunning⟩ he ha
  have hs := hrunning he
  rw [engineStep_of_lzw he ha]
  rcases Nat.lt_or_ge (bitsLeft s) s.lzw.width.toNat with hfew | hbits
  · exact ⟨raiseExhausted s, lzwStep_of_exhausted hfew, .inl rfl⟩
  · obtain ⟨t, hx, hresult⟩ := exec_decodeCode (advanceCursor s) (codeAtCursor s)
    refine ⟨t, (lzwStep_of_code hbits).trans hx, ?_⟩
    rcases hresult.frame.idle_or_cursor_kept with hidle | ⟨heng, hpos, hlatch⟩
    · exact .inl hidle
    · have hinside := (hs.advanceCursor hbits).cursor_inside
      have hmoved := hs.bitPos_advanceCursor hbits
      obtain ⟨hlow, hhigh⟩ := hs.width_bounds
      rw [← hpos, ← hlatch] at hinside
      exact .inr ⟨heng.trans he, hpos ▸ hmoved, hlow, hhigh, hinside⟩

end Sys2Proof.Proofs

/-! ## A running LZW_DECODE ends (R143, R144, R146, R232) -/

namespace Sys2Proof.Machine

/-- A code class raises one of its two errors, or works on the decoder and then tests for completion (R133 to R144). -/
theorem exec_code_ending (ctx : CodeCtx) (c : Code) (s : State) :
    ∃ t, exec (decodeCode ctx c) s = .next t
      ∧ (t = raise .shortPixelData s.pixCount s.lzw.codeStart s
        ∨ t = raise .invalidLzwCode (c.setWidth 32) s.lzw.codeStart s
        ∨ ∃ u, OnlyDecoder s u ∧ t = finishIfComplete u) := by
  rcases decodeCode_cases ctx c with ⟨-, hd⟩ | ⟨-, hd⟩ | ⟨-, -, hd⟩ | ⟨-, -, hd⟩ | ⟨-, -, -, -, hd⟩ | ⟨-, -, hd⟩ <;>
    rw [hd]
  · exact ⟨_, rfl, .inr (.inr ⟨initTable s, rfl, rfl⟩)⟩
  · exact ⟨_, rfl, .inl rfl⟩
  · exact ⟨_, rfl, .inr (.inr ⟨_, (onlyDecoder_emit _ s).setPrev c, rfl⟩)⟩
  · exact ⟨_, rfl, .inr (.inr ⟨_, ((onlyDecoder_emit _ s).addSlot _ _).setPrev c, rfl⟩)⟩
  · exact ⟨_, rfl, .inr (.inr ⟨_, ((onlyDecoder_emit _ s).addSlot _ _).setPrev c, rfl⟩)⟩
  · exact ⟨_, rfl, .inr (.inl rfl)⟩

/-- LZW_DECODE has ended: with every index stored (R144), or with one of its three errors (R121, R134, R140). -/
def LzwEnded (t : State) : Prop :=
  t.eng = .idle
    ∧ ((t.status.done = true ∧ t.status.err = false ∧ t.status.idxValid = true ∧ t.pixCount.toNat = outLength t)
      ∨ (t.status.done = false ∧ t.status.err = true ∧ t.status.idxValid = false
        ∧ (t.status.errCode = 0x01 ∨ t.status.errCode = 0x02 ∨ t.status.errCode = 0x03)))

/-- A running LZW_DECODE left to the Engine: no abort is asked for and no Host access is pending. -/
structure DecodesAlone (s : State) : Prop where
  inv : LzwInv s
  eng_lzw : s.eng = .lzw
  idx_invalid : s.status.idxValid = false
  no_abort : s.status.abortReq = false
  no_event : s.host.events = []

theorem DecodesAlone.running {s : State} (h : DecodesAlone s) : LzwRunning s := h.inv.2 h.eng_lzw

/-- NEXTCODE takes WIDTH bits off the stream (R122). -/
theorem LzwRunning.bitsLeft_advanceCursor {s : State} (hs : LzwRunning s) (hbits : s.lzw.width.toNat ≤ bitsLeft s) :
    bitsLeft (Machine.advanceCursor s) + s.lzw.width.toNat = bitsLeft s := by
  have hpos := hs.bitPos_advanceCursor hbits
  unfold bitsLeft at hbits ⊢
  rw [hpos, advanceCursor_indexLatch]
  omega

/-- A step of the Engine ends the decode, or goes on with it behind a code of at least 3 bits (R146). -/
theorem DecodesAlone.step {s : State} (h : DecodesAlone s) :
    ∃ t, step s = .next t ∧ (LzwEnded t ∨ (DecodesAlone t ∧ bitsLeft t + 3 ≤ bitsLeft s)) := by
  have hstep : Machine.step s = lzwStep s := by
    rw [step_of_no_event h.no_event, engineStep_of_lzw h.eng_lzw h.no_abort]
  rcases Nat.lt_or_ge (bitsLeft s) s.lzw.width.toNat with hfew | hbits
  · exact ⟨raiseExhausted s, hstep.trans (lzwStep_of_exhausted hfew),
      .inl ⟨rfl, .inr ⟨rfl, rfl, h.idx_invalid, .inl rfl⟩⟩⟩
  · obtain ⟨t, hx, hend⟩ := exec_code_ending (codeCtx s) (codeAtCursor s) (advanceCursor s)
    have ht : Machine.step s = .next t := hstep.trans ((lzwStep_of_code hbits).trans hx)
    refine ⟨t, ht, ?_⟩
    rcases hend with rfl | rfl | ⟨u, hu, rfl⟩
    · exact .inl ⟨rfl, .inr ⟨rfl, rfl, h.idx_invalid, .inr (.inr rfl)⟩⟩
    · exact .inl ⟨rfl, .inr ⟨rfl, rfl, h.idx_invalid, .inr (.inl rfl)⟩⟩
    · by_cases hfull : u.pixCount.toNat = outLength u
      · rw [finishIfComplete_complete hfull]
        exact .inl ⟨rfl, .inl ⟨rfl, rfl, rfl, hfull⟩⟩
      · rw [finishIfComplete_open hfull] at ht ⊢
        have hleft : bitsLeft u = bitsLeft (advanceCursor s) := hu.proj bitsLeft
        have htaken := h.running.bitsLeft_advanceCursor hbits
        have hwidth := h.running.width_bounds.1
        refine .inr ⟨?_, by omega⟩
        exact {
          inv := step_keeps lzwInv_keptByParts h.inv ht
          eng_lzw := (hu.proj State.eng).trans h.eng_lzw
          idx_invalid := (hu.proj (·.status.idxValid)).trans h.idx_invalid
          no_abort := (hu.proj (·.status.abortReq)).trans h.no_abort
          no_event := (hu.proj (·.host.events)).trans h.no_event }

/-- Left to the Engine, a decode ends within a third of the bits that are left, and one step (R146). -/
theorem DecodesAlone.run {s : State} (h : DecodesAlone s) :
    ∃ n t, n ≤ bitsLeft s / 3 + 1 ∧ core.run n s = .next t ∧ LzwEnded t := by
  induction hb : bitsLeft s using Nat.strong_induction_on generalizing s with
  | _ b ih =>
    subst hb
    obtain ⟨t, ht, hended | ⟨hnext, hfewer⟩⟩ := h.step
    · exact ⟨1, t, by omega, core_run_succ (M := core) ht 0, hended⟩
    · obtain ⟨n, z, hn, hrun, hended⟩ := ih _ (by omega) hnext rfl
      exact ⟨n + 1, z, by omega, (core_run_succ (M := core) ht n).trans hrun, hended⟩

end Sys2Proof.Machine

namespace Sys2Proof.Proofs

open Sys2Proof.Machine

/-- Settles O41: by induction on the bits that are left, of which every step that does not end the decode takes 3. -/
theorem lzwTerminates : Obligations.LzwTerminates := by
  intro s hinv he ha hev
  exact DecodesAlone.run ⟨hinv.lzw, he, (hinv.control.in_lzw he).1, ha, hev⟩

end Sys2Proof.Proofs

/-! ## LZW_DECODE at acceptance, and what each code class does (R130 to R144) -/

namespace Sys2Proof.Machine

open Claims (emits endsWhenFull addsSlot initialises legalSize accepted failed)

/-! The stop at width×height. -/

/-- The test for completion changes ENG_STATE and STATUS and nothing else (R144). -/
theorem finishIfComplete_eq (u : State) :
    finishIfComplete u = { u with eng := (finishIfComplete u).eng, status := (finishIfComplete u).status } := by
  unfold finishIfComplete
  split <;> rfl

@[simp] theorem finishIfComplete_pixCount (u : State) : (finishIfComplete u).pixCount = u.pixCount := by
  rw [finishIfComplete_eq]

@[simp] theorem finishIfComplete_idxMem (u : State) : (finishIfComplete u).idxMem = u.idxMem := by
  rw [finishIfComplete_eq]

/-- A class that works on the decoder and then tests for completion ends exactly when the output is full. -/
theorem OnlyDecoder.endsWhenFull {s u : State} (h : OnlyDecoder s u) : endsWhenFull s (finishIfComplete u) := by
  have hlen : outLength u = outLength s := h.proj outLength
  have hstatus : u.status = s.status := h.proj State.status
  by_cases hfull : u.pixCount.toNat = outLength u
  · rw [finishIfComplete_complete hfull, hstatus]
    exact ⟨fun _ => ⟨rfl, rfl⟩, fun hopen => absurd (hfull.trans hlen) hopen⟩
  · rw [finishIfComplete_open hfull]
    exact ⟨fun hf => absurd (hf.trans hlen.symm) hfull, fun _ => ⟨h.proj State.eng, hstatus⟩⟩

/-! INIT_TABLE. -/

/-- INIT_TABLE for a legal minCodeSize (R132). -/
theorem initialises_initTable {s : State} (hm : legalMinCode s.indexLatch.lm.toNat = true) :
    initialises s (initTable s) s.indexLatch.lm.toNat :=
  ⟨width_initTable hm, nextFree_initTable hm, rfl, rfl, rfl, slotAt_initTable s⟩

/-! EMIT and ADD in a code class. -/

/-- An output of two 16-bit sides can be counted in 32 bits. -/
theorem outLength_lt (s : State) : outLength s < 2 ^ 32 :=
  calc outLength s < 2 ^ 16 * 2 ^ 16 := Nat.mul_lt_mul'' s.indexLatch.idxW.isLt s.indexLatch.idxH.isLt
    _ = 2 ^ 32 := rfl

theorem emits_emit {s : State} (hp : s.pixCount.toNat ≤ outLength s) (str : List Byte) : emits s (emit str s) str :=
  ⟨pixCount_emit str (outLength_lt s) hp, idxByte_emit str (outLength_lt s) hp⟩

/-- What is emitted is seen in PIX_COUNT and IDX_MEM alone. -/
theorem emits_of_eq {s t u : State} {str : List Byte} (h : emits s u str) (hcount : t.pixCount = u.pixCount)
    (hmem : t.idxMem = u.idxMem) : emits s t str := by
  unfold emits idxByte at h ⊢
  rwa [hcount, hmem]

theorem addsSlot_addSlot (s : State) (q : Code) (v : Byte) : addsSlot s (addSlot q v s) q v := by
  refine ⟨fun hopen => ⟨?_, ?_, fun n => ?_⟩, fun hfull => ?_⟩
  · rw [nextFree_addSlot, if_pos hopen]
  · rw [width_addSlot, if_pos hopen, grownWidth_toNat]
  · simp only [slotAt_addSlot, hopen, true_and]
  · rw [addSlot_full q v (Nat.not_lt.mpr hfull)]
    exact ⟨rfl, rfl, fun _ => rfl⟩

/-- What HIT and KWKWK share: emit a string, build a slot on PREV, become PREV, end when the output is full. -/
def buildResult (c : Code) (v : Byte) (str : List Byte) (s : State) : State :=
  finishIfComplete (setPrev c (addSlot s.lzw.prev v (emit str s)))

theorem exec_lzwHit (c : Code) (s : State) :
    exec (.lzwHit c) s = .next (buildResult c (firstOf (strOf s c)) (strOf s c) s) := rfl

theorem exec_lzwKwkwk (c : Code) (s : State) :
    exec (.lzwKwkwk c) s =
      .next (buildResult c (firstOf (strOf s s.lzw.prev)) (strOf s s.lzw.prev ++ [firstOf (strOf s s.lzw.prev)]) s) :=
  rfl

section

variable (c : Code) (v : Byte) (str : List Byte) (s : State)

theorem buildResult_eq :
    buildResult c v str s = { s with
      eng := (buildResult c v str s).eng
      status := (buildResult c v str s).status
      idxMem := (emit str s).idxMem
      pixCount := (emit str s).pixCount
      table := (addSlot s.lzw.prev v (emit str s)).table
      lzw := { s.lzw with
        prev := c
        prevValid := true
        nextFree := (addSlot s.lzw.prev v (emit str s)).lzw.nextFree
        width := (addSlot s.lzw.prev v (emit str s)).lzw.width } } := by
  unfold buildResult
  rw [finishIfComplete_eq, addSlot_eq, emit_eq]
  rfl

theorem buildResult_emits (hp : s.pixCount.toNat ≤ outLength s) : emits s (buildResult c v str s) str := by
  refine emits_of_eq (emits_emit hp str) ?_ ?_ <;> rw [buildResult_eq]

theorem buildResult_addsSlot : addsSlot s (buildResult c v str s) s.lzw.prev v := by
  have h := addsSlot_addSlot (emit str s) s.lzw.prev v
  have hlzw : (emit str s).lzw = s.lzw := by rw [emit_eq]
  rw [buildResult_eq]
  unfold addsSlot at h ⊢
  simp only [hlzw, emit_slotAt] at h
  exact h

theorem buildResult_endsWhenFull : endsWhenFull s (buildResult c v str s) :=
  (((onlyDecoder_emit str s).addSlot s.lzw.prev v).setPrev c).endsWhenFull

end

/-! Acceptance of LZW_DECODE (R130, R131). -/

theorem sizeLegal_iff_legalSize {maxDim capacity w h : Nat} :
    sizeLegal maxDim capacity w h = true ↔ legalSize maxDim capacity w h := by
  rw [sizeLegal_iff]
  unfold legalSize
  omega

theorem legalMinCode_iff {m : Nat} : legalMinCode m = true ↔ 2 ≤ m ∧ m ≤ 8 := by
  simp [legalMinCode]

theorem exec_lzwDecode_idle {s : State} (hb : busy s = false) :
    exec .lzwDecode s = .next (acceptLzw (accept 0x3 s)) := by
  show Host.Outcome.next (request 0x3 acceptLzw s) = _
  rw [request, if_neg (by simp [hb])]

/-- The state after a check of R130 has failed while idle. -/
theorem raise_beginLzw {s : State} (hb : busy s = false) (e : ErrorCode) (i0 i1 : Word) :
    raise e i0 i1 (beginLzw (accept 0x3 s)) = { s with
      status := failed (errorByte e) { accepted 0x3 s.status with idxValid := false }
      errInfo0 := i0
      errInfo1 := i1
      bitPos := 0
      pixCount := 0 } := by
  rw [raise, ← (busy_eq_false_iff s).mp hb]
  rfl

end Sys2Proof.Machine

namespace Sys2Proof.Proofs

open Sys2Proof.Machine

/-- Settles O28: the three checks of R130 in order, and the state in which the decode starts. -/
theorem lzwDecodeAcceptance : Obligations.LzwDecodeAcceptance := by
  intro s hb
  dsimp only
  rw [← frameW_toNat, ← frameH_toNat, ← sizeLegal_iff_legalSize, ← legalMinCode_iff]
  refine ⟨fun hsize => ?_, fun hsize hmin => ?_, fun hsize hmin hrange => ?_, fun hsize hmin hrange => ?_⟩
  · rw [exec_lzwDecode_idle hb, acceptLzw, if_pos (by simpa using hsize)]
    exact congrArg _ (raise_beginLzw hb _ _ _)
  · rw [exec_lzwDecode_idle hb, acceptLzw, if_neg (by simpa using hsize), if_pos (by simpa using hmin),
      BitVec.ofNat_toNat]
    exact congrArg _ (raise_beginLzw hb _ _ _)
  · rw [exec_lzwDecode_idle hb, acceptLzw, if_neg (by simpa using hsize), if_neg (by simpa using hmin),
      if_pos (by simpa using hrange)]
    exact congrArg _ (raise_beginLzw hb _ _ _)
  · exact ⟨startLzw s, exec_lzwDecode_of_checks hb hsize hmin hrange, rfl, rfl, rfl, rfl, rfl, rfl,
      initialises_initTable (s := latchStream (beginLzw (accept 0x3 s))) hmin⟩

/-- Settles O33: INIT_TABLE and the test for completion. -/
theorem clearCode : Obligations.ClearCode := by
  intro s c hm
  have hends : Claims.endsWhenFull s (finishIfComplete (initTable s)) := OnlyDecoder.endsWhenFull rfl
  refine ⟨finishIfComplete (initTable s), rfl, ?_, ?_, hends⟩
  · rw [finishIfComplete_eq]
    rfl
  · rw [finishIfComplete_eq]
    exact initialises_initTable hm

/-- Settles O34: both raise their error on the state NEXTCODE leaves. -/
theorem endAndInvalidCodes : Obligations.EndAndInvalidCodes := by
  intro s c
  refine ⟨rfl, raise .invalidLzwCode (c.setWidth 32) s.lzw.codeStart s, rfl, rfl, ?_⟩
  exact BitVec.toNat_setWidth_of_le (by decide)

/-- Settles O35: the string of a root is emitted, and the table stays. -/
theorem firstCode : Obligations.FirstCode := by
  intro s c hp
  have hframe := (onlyDecoder_emit [c.setWidth 8] s).setPrev c
  refine ⟨finishIfComplete (setPrev c (emit [c.setWidth 8] s)), rfl, ?_, ?_, hframe.endsWhenFull⟩
  · rw [finishIfComplete_eq, emit_eq]
    rfl
  · rw [BitVec.ofNat_toNat]
    exact emits_of_eq (emits_emit hp _) (finishIfComplete_pixCount _) (finishIfComplete_idxMem _)

/-- Settles O36: HIT emits and builds with the string of its own code. -/
theorem hitCode : Obligations.HitCode := by
  intro s c hp
  exact ⟨_, exec_lzwHit c s, by rw [buildResult_eq], buildResult_emits _ _ _ s hp, buildResult_addsSlot _ _ _ s,
    buildResult_endsWhenFull _ _ _ s⟩

/-- Settles O37: KWKWK emits and builds with the string of the previous code. -/
theorem kwkwkCode : Obligations.KwkwkCode := by
  intro s c hp
  exact ⟨_, exec_lzwKwkwk c s, by rw [buildResult_eq], buildResult_emits _ _ _ s hp, buildResult_addsSlot _ _ _ s,
    buildResult_endsWhenFull _ _ _ s⟩

end Sys2Proof.Proofs

/-! ## The compositor's commands at acceptance (R171, R175, R176, R190 to R192, R196) -/

namespace Sys2Proof.Machine

open Claims (failed)

/-! The fields of the configuration registers (R28 to R37). -/

theorem lowHalf_toNat (w : Word) : (w.extractLsb' 0 16).toNat = w.toNat % 65536 := by
  simp [BitVec.extractLsb'_toNat]

theorem highHalf_toNat (w : Word) : (w.extractLsb' 16 16).toNat = w.toNat / 65536 := by
  have := w.isLt
  simp only [BitVec.extractLsb'_toNat, Nat.shiftRight_eq_div_pow]
  omega

theorem cwCfg_toNat (r : ConfigRegs) : (cwCfg r).toNat = r.canvasSize.toNat % 65536 := lowHalf_toNat _

theorem chCfg_toNat (r : ConfigRegs) : (chCfg r).toNat = r.canvasSize.toNat / 65536 := highHalf_toNat _

theorem gctSize_eq (r : ConfigRegs) : gctSize r = 2 ^ (r.gctCfg.toNat / 2 + 1) := by
  have := r.gctCfg.isLt
  simp only [gctSize, entriesOf, BitVec.extractLsb'_toNat, Nat.shiftRight_eq_div_pow]
  rw [Nat.mod_eq_of_lt (by omega)]

theorem lctSize_eq (r : ConfigRegs) : lctSize r = 2 ^ (r.frameFlags.toNat / 4 % 8 + 1) := by
  simp only [lctSize, entriesOf, BitVec.extractLsb'_toNat, Nat.shiftRight_eq_div_pow]

theorem disposalOf_toNat (r : ConfigRegs) : (disposalOf r).toNat = r.frameFlags.toNat / 64 := by
  have := r.frameFlags.isLt
  simp only [disposalOf, BitVec.extractLsb'_toNat, Nat.shiftRight_eq_div_pow]
  omega

/-- The detail word of SEQUENCE_ERROR (R241). -/
theorem validityWord_toNat (s : State) : (validityWord s).toNat =
    4 * s.status.framePending.toNat + 2 * s.status.idxValid.toNat + s.status.canvasValid.toNat := by
  unfold validityWord
  cases s.status.framePending <;> cases s.status.idxValid <;> cases s.status.canvasValid <;> rfl

/-! Requests while idle. -/

/-- While idle a request is accepted and its acceptance rule runs (R220). -/
theorem request_idle {s : State} (hb : busy s = false) (op : BitVec 4) (acceptance : State → State) :
    request op acceptance s = acceptance (accept op s) := by
  rw [request, if_neg (by simp [hb])]

theorem exec_canvasInit_idle {s : State} (hb : busy s = false) :
    exec .canvasInit s = .next (acceptCanvasInit (accept 0x2 s)) :=
  congrArg Host.Outcome.next (request_idle hb _ _)

theorem exec_compose_idle {s : State} (hb : busy s = false) :
    exec .compose s = .next (acceptCompose (accept 0x4 s)) :=
  congrArg Host.Outcome.next (request_idle hb _ _)

theorem exec_dispose_idle {s : State} (hb : busy s = false) :
    exec .dispose s = .next (acceptDispose (accept 0x5 s)) :=
  congrArg Host.Outcome.next (request_idle hb _ _)

/-- The state after a check has failed on an idle state whose acceptance has changed STATUS and PROGRESS. -/
theorem raise_accepted {s : State} (hb : busy s = false) (e : ErrorCode) (i0 i1 p : Word) (st : Status) :
    raise e i0 i1 { s with status := st, progress := p } = { s with
      status := failed (errorByte e) st, errInfo0 := i0, errInfo1 := i1, progress := p } := by
  rw [raise, ← (busy_eq_false_iff s).mp hb]
  rfl

/-! CANVAS_INIT. -/

theorem acceptCanvasInit_of_size {s : State}
    (h : sizeLegal s.params.maxDim s.params.canvasPixels (cwCfg s.regs).toNat (chCfg s.regs).toNat = false) :
    acceptCanvasInit s = raise .invalidResolution s.regs.canvasSize 0 (beginCanvasInit s) := by
  rw [acceptCanvasInit, if_pos h]

theorem acceptCanvasInit_of_background {s : State}
    (hsize : sizeLegal s.params.maxDim s.params.canvasPixels (cwCfg s.regs).toNat (chCfg s.regs).toNat = true)
    (h : ¬ (gctPresent s.regs = true ∧ s.regs.bgIndex.toNat < gctSize s.regs)) :
    acceptCanvasInit s = raise .invalidImage 0xFFFFFFFF (s.regs.bgIndex.setWidth 32) (beginCanvasInit s) := by
  rw [not_and_or, Bool.not_eq_true, Nat.not_lt] at h
  rw [acceptCanvasInit, if_neg (by simp [hsize]), if_pos h]

theorem acceptCanvasInit_of_checks {s : State}
    (hsize : sizeLegal s.params.maxDim s.params.canvasPixels (cwCfg s.regs).toNat (chCfg s.regs).toNat = true)
    (h : gctPresent s.regs = true ∧ s.regs.bgIndex.toNat < gctSize s.regs) :
    acceptCanvasInit s = latchCanvas (beginCanvasInit s) := by
  rw [acceptCanvasInit, if_neg (by simp [hsize]), if_neg (by simp [h])]

/-- The state in which an accepted CANVAS_INIT starts (R171). -/
def startCanvasInit (s : State) : State := latchCanvas (beginCanvasInit (accept 0x2 s))

theorem exec_canvasInit_of_checks {s : State} (hb : busy s = false)
    (hsize : sizeLegal s.params.maxDim s.params.canvasPixels (cwCfg s.regs).toNat (chCfg s.regs).toNat = true)
    (h : gctPresent s.regs = true ∧ s.regs.bgIndex.toNat < gctSize s.regs) :
    exec .canvasInit s = .next (startCanvasInit s) :=
  (exec_canvasInit_idle hb).trans (congrArg _ (acceptCanvasInit_of_checks hsize h))

/-! COMPOSE. -/

/-- What COMPOSE asks of the validity flags (R175). -/
def ComposeReady (st : Status) : Prop := st.canvasValid = true ∧ st.idxValid = true ∧ st.framePending = false

theorem acceptCompose_of_not_ready {s : State} (h : ¬ ComposeReady s.status) :
    acceptCompose s = raise .sequenceError (validityWord s) 0x4 s := by
  simp only [ComposeReady, not_and_or, Bool.not_eq_true, Bool.not_eq_false] at h
  rw [acceptCompose, if_pos h]

theorem acceptCompose_of_disposal {s : State} (hready : ComposeReady s.status) (h : 3 < (disposalOf s.regs).toNat) :
    acceptCompose s = raise .invalidDisposal ((disposalOf s.regs).setWidth 32) 0 s := by
  obtain ⟨hcanvas, hidx, hpending⟩ := hready
  rw [acceptCompose, if_neg (by simp [hcanvas, hidx, hpending]), if_pos h]

theorem acceptCompose_of_checks {s : State} (hready : ComposeReady s.status) (h : (disposalOf s.regs).toNat ≤ 3) :
    acceptCompose s = latchFrame s := by
  obtain ⟨hcanvas, hidx, hpending⟩ := hready
  rw [acceptCompose, if_neg (by simp [hcanvas, hidx, hpending]), if_neg (Nat.not_lt.mpr h)]

/-- The state in which an accepted COMPOSE starts (R175). -/
def startCompose (s : State) : State := latchFrame (accept 0x4 s)

theorem exec_compose_of_checks {s : State} (hb : busy s = false) (hready : ComposeReady s.status)
    (h : (disposalOf s.regs).toNat ≤ 3) : exec .compose s = .next (startCompose s) :=
  (exec_compose_idle hb).trans (congrArg _ (acceptCompose_of_checks (s := accept 0x4 s) hready h))

theorem activeTable_of_lct {r : ConfigRegs} (h : lctPresent r = true) : activeTable r = (.localTable, lctSize r) := by
  rw [activeTable, if_pos h]

theorem activeTable_of_gct {r : ConfigRegs} (hl : lctPresent r = false) (hg : gctPresent r = true) :
    activeTable r = (.globalTable, gctSize r) := by
  rw [activeTable, if_neg (by simp [hl]), if_pos hg]

theorem activeTable_of_none {r : ConfigRegs} (hl : lctPresent r = false) (hg : gctPresent r = false) :
    activeTable r = (.noTable, 0) := by
  rw [activeTable, if_neg (by simp [hl]), if_neg (by simp [hg])]

/-- FL_TSEL and FL_TSIZE are the active table (R176), whose at most 256 entries FL_TSIZE can count. -/
theorem latchedTable_startCompose (s : State) :
    (startCompose s).frameLatch.tsel = (activeTable s.regs).1
      ∧ (startCompose s).frameLatch.tsize.toNat = (activeTable s.regs).2 := by
  refine ⟨rfl, BitVec.toNat_ofNat .. |>.trans (Nat.mod_eq_of_lt ?_)⟩
  have hentries : ∀ code, entriesOf code ≤ 2 ^ 8 := fun code => Nat.pow_le_pow_right (by decide) (by omega)
  have hlct := hentries (s.regs.frameFlags.extractLsb' 2 3)
  have hgct := hentries (s.regs.gctCfg.extractLsb' 1 3)
  show (activeTable s.regs).2 < 2 ^ 9
  unfold activeTable lctSize gctSize
  split_ifs <;> dsimp only <;> omega

/-! DISPOSE. -/

theorem regionEmpty_iff (c : CanvasLatch) (f : FrameLatch) :
    regionEmpty c f = true ↔ ∀ x y, inRegion c f x y = false := by
  constructor
  · intro h x y
    simp only [regionEmpty, Bool.or_eq_true, decide_eq_true_eq] at h
    rw [Bool.eq_false_iff]
    intro hin
    simp only [inRegion, Bool.and_eq_true, decide_eq_true_eq] at hin
    omega
  · intro h
    by_contra hne
    exact absurd (inRegion_start (Bool.eq_false_iff.mpr hne)) (by simp [h])

/-- What DISPOSE asks of the validity flags (R190). -/
def DisposeReady (st : Status) : Prop := st.framePending = true ∧ st.canvasValid = true

/-- DISPOSE has nothing to restore: the disposal is 0 or 1 or REGION is empty (R191, R192, R196). -/
def NothingToRestore (s : State) : Prop :=
  s.frameLatch.disp.toNat ≤ 1 ∨ regionEmpty s.canvasLatch s.frameLatch = true

theorem acceptDispose_of_not_ready {s : State} (h : ¬ DisposeReady s.status) :
    acceptDispose s = raise .sequenceError (validityWord s) 0x5 s := by
  simp only [DisposeReady, not_and_or, Bool.not_eq_true] at h
  rw [acceptDispose, if_pos h]

theorem acceptDispose_of_nothing {s : State} (hready : DisposeReady s.status) (h : NothingToRestore s) :
    acceptDispose s = finish (beginDispose s) := by
  obtain ⟨hpending, hcanvas⟩ := hready
  rw [acceptDispose, if_neg (by simp [hcanvas, hpending])]
  exact if_pos h

theorem acceptDispose_of_walk {s : State} (hready : DisposeReady s.status) (h : ¬ NothingToRestore s) :
    acceptDispose s = beginRegion (beginDispose s) := by
  obtain ⟨hpending, hcanvas⟩ := hready
  rw [acceptDispose, if_neg (by simp [hcanvas, hpending])]
  exact if_neg h

theorem exec_dispose_of_nothing {s : State} (hb : busy s = false) (hready : DisposeReady s.status)
    (h : NothingToRestore s) : exec .dispose s = .next (finish (beginDispose (accept 0x5 s))) :=
  (exec_dispose_idle hb).trans (congrArg _ (acceptDispose_of_nothing (s := accept 0x5 s) hready h))

/-- The state in which a DISPOSE that restores starts (R190). -/
def startDispose (s : State) : State := beginRegion (beginDispose (accept 0x5 s))

theorem exec_dispose_of_walk {s : State} (hb : busy s = false) (hready : DisposeReady s.status)
    (h : ¬ NothingToRestore s) : exec .dispose s = .next (startDispose s) :=
  (exec_dispose_idle hb).trans (congrArg _ (acceptDispose_of_walk (s := accept 0x5 s) hready h))

end Sys2Proof.Machine

namespace Sys2Proof.Proofs

open Sys2Proof.Machine

/-- Settles O27: the two checks of R171 in order, and the state in which the fill starts. -/
theorem canvasInitAcceptance : Obligations.CanvasInitAcceptance := by
  intro s hb
  dsimp only
  rw [← cwCfg_toNat, ← chCfg_toNat, ← sizeLegal_iff_legalSize, ← gctSize_eq]
  refine ⟨fun hsize => ?_, fun hsize hbackground => ?_, fun hsize hbackground => ?_⟩
  · rw [exec_canvasInit_idle hb, acceptCanvasInit_of_size (by simpa using hsize)]
    exact congrArg _ (raise_accepted hb _ _ _ _ _)
  · rw [exec_canvasInit_idle hb, acceptCanvasInit_of_background (s := accept 0x2 s) hsize hbackground]
    exact congrArg _ (raise_accepted hb _ _ _ _ _)
  · exact ⟨startCanvasInit s, exec_canvasInit_of_checks hb hsize hbackground, rfl, rfl, rfl, rfl⟩

/-- Settles O29: the two checks of R175 in order, and the state in which the validation starts. -/
theorem composeAcceptance : Obligations.ComposeAcceptance := by
  intro s hb
  dsimp only
  rw [← disposalOf_toNat, ← lctSize_eq, ← gctSize_eq]
  refine ⟨fun hready => ?_, fun hready hdisp => ?_, fun hready hdisp => ?_⟩
  · rw [exec_compose_idle hb, acceptCompose_of_not_ready (s := accept 0x4 s) hready]
    exact ⟨_, rfl, raise_accepted hb _ _ _ _ _, validityWord_toNat s⟩
  · rw [exec_compose_idle hb, acceptCompose_of_disposal (s := accept 0x4 s) hready hdisp, BitVec.ofNat_toNat]
    exact congrArg _ (raise_accepted hb _ _ _ _ _)
  · have table := latchedTable_startCompose s
    refine ⟨startCompose s, exec_compose_of_checks hb hready hdisp, rfl, lowHalf_toNat _, highHalf_toNat _, rfl, rfl,
      rfl, rfl, rfl, rfl, fun hl => ?_, fun hl hg => ?_, fun hl hg => ?_⟩
    · rwa [activeTable_of_lct hl] at table
    · rwa [activeTable_of_gct hl hg] at table
    · rwa [activeTable_of_none hl hg] at table

/-- Settles O30: the check of R190, and what it leads to with an empty and with a non-empty REGION. -/
theorem disposeAcceptance : Obligations.DisposeAcceptance := by
  intro s hb
  dsimp only
  rw [← regionEmpty_iff]
  refine ⟨fun hready => ?_, fun hready hnothing => ?_, exec_dispose_of_walk hb⟩
  · rw [exec_dispose_idle hb, acceptDispose_of_not_ready (s := accept 0x5 s) hready]
    exact ⟨_, rfl, raise_accepted hb _ _ _ _ _, validityWord_toNat s⟩
  · rw [exec_dispose_of_nothing hb hready hnothing, finish, ← (busy_eq_false_iff s).mp hb]
    rfl

end Sys2Proof.Proofs

/-! ## Where the pixels of a frame lie (R177, R181, R182) -/

namespace Sys2Proof.Machine

open Claims (passOf pixelCell)

/-- Which pass a stream row lies in, and its place there (R181). The first three passes hold ⌈H/8⌉, ⌈(H−4)/8⌉ and
⌈(H−2)/4⌉ rows. -/
theorem ilrow_cases (k h : Nat) :
    (k < (h + 7) / 8 ∧ ilrow k h = 8 * k ∧ passOf (ilrow k h) = 0)
      ∨ ((h + 7) / 8 ≤ k ∧ k < (h + 7) / 8 + (h + 3) / 8 ∧ ilrow k h = 4 + 8 * (k - (h + 7) / 8)
        ∧ passOf (ilrow k h) = 1)
      ∨ ((h + 7) / 8 + (h + 3) / 8 ≤ k ∧ k < (h + 7) / 8 + (h + 3) / 8 + (h + 1) / 4
        ∧ ilrow k h = 2 + 4 * (k - (h + 7) / 8 - (h + 3) / 8) ∧ passOf (ilrow k h) = 2)
      ∨ ((h + 7) / 8 + (h + 3) / 8 + (h + 1) / 4 ≤ k
        ∧ ilrow k h = 1 + 2 * (k - (h + 7) / 8 - (h + 3) / 8 - (h + 1) / 4) ∧ passOf (ilrow k h) = 3) := by
  have first : ∀ q, passOf (8 * q) = 0 := fun q => by simp [passOf]
  have second : ∀ q, passOf (4 + 8 * q) = 1 := fun q => by rw [passOf, if_neg (by omega), if_pos (by omega)]
  have third : ∀ q, passOf (2 + 4 * q) = 2 := fun q => by
    rw [passOf, if_neg (by omega), if_neg (by omega), if_pos (by omega)]
  have fourth : ∀ q, passOf (1 + 2 * q) = 3 := fun q => by
    rw [passOf, if_neg (by omega), if_neg (by omega), if_neg (by omega)]
  unfold ilrow
  dsimp only
  split_ifs with h1 h2 h3
  · exact .inl ⟨h1, rfl, first _⟩
  · exact .inr (.inl ⟨by omega, h2, rfl, second _⟩)
  · exact .inr (.inr (.inl ⟨by omega, h3, rfl, third _⟩))
  · exact .inr (.inr (.inr ⟨by omega, rfl, fourth _⟩))

theorem ilrow_lt {k h : Nat} (hk : k < h) : ilrow k h < h := by
  have hpass := ilrow_cases k h
  omega

/-- The rows of a stream lie pass after pass, and rise within a pass (R181). -/
theorem ilrow_rises {k k' h : Nat} (hlt : k < k') :
    passOf (ilrow k h) < passOf (ilrow k' h)
      ∨ (passOf (ilrow k h) = passOf (ilrow k' h) ∧ ilrow k h < ilrow k' h) := by
  have hpass := ilrow_cases k h
  have hpass' := ilrow_cases k' h
  omega

theorem ilrow_inj {k k' h : Nat} (heq : ilrow k h = ilrow k' h) : k = k' := by
  rcases Nat.lt_trichotomy k k' with hlt | hsame | hgt
  · have hrises := ilrow_rises (h := h) hlt
    rw [heq] at hrises
    omega
  · exact hsame
  · have hrises := ilrow_rises (h := h) hgt
    rw [heq] at hrises
    omega

/-- Each frame row is some stream row: rows below H go one to one to rows below H. -/
theorem exists_ilrow_eq {r h : Nat} (hr : r < h) : ∃ k, k < h ∧ ilrow k h = r := by
  have hsurj : Function.Surjective fun k : Fin h => (⟨ilrow k h, ilrow_lt k.isLt⟩ : Fin h) :=
    Finite.surjective_of_injective fun k k' heq => Fin.ext (ilrow_inj (Fin.mk.inj heq))
  obtain ⟨k, hk⟩ := hsurj ⟨r, hr⟩
  exact ⟨k, k.isLt, Fin.mk.inj hk⟩

/-- No two stream rows are drawn on one frame row, interlaced or not. -/
theorem rowOf_inj {f : FrameLatch} {k k' : Nat} (h : rowOf f k = rowOf f k') : k / f.w.toNat = k' / f.w.toNat := by
  unfold rowOf at h
  dsimp only at h
  split at h
  · exact ilrow_inj h
  · exact h

theorem pixelCell_inj {s : State} {k k' : Nat} (hk : inside s.canvasLatch s.frameLatch k = true)
    (hk' : inside s.canvasLatch s.frameLatch k' = true) (h : pixelCell s k = pixelCell s k') : k = k' := by
  simp only [inside, Bool.and_eq_true, decide_eq_true_eq] at hk hk'
  obtain ⟨hx, hy⟩ := cellOf_inj hk.1 hk'.1 h
  have hcol : k % s.frameLatch.w.toNat = k' % s.frameLatch.w.toNat := Nat.add_left_cancel hx
  have hrow := rowOf_inj (Nat.add_left_cancel hy)
  rw [← Nat.div_add_mod k s.frameLatch.w.toNat, ← Nat.div_add_mod k' s.frameLatch.w.toNat, hcol, hrow]

theorem rowOf_lt {f : FrameLatch} {k : Nat} (hk : k < frameArea f) : rowOf f k < f.h.toNat := by
  have hrow : k / f.w.toNat < f.h.toNat := Nat.div_lt_of_lt_mul hk
  unfold rowOf
  dsimp only
  split
  · exact ilrow_lt hrow
  · exact hrow

/-- A pixel of the frame inside the canvas lies in REGION (R177, R196). -/
theorem inRegion_pixel {c : CanvasLatch} {f : FrameLatch} {k : Nat} (hk : k < frameArea f)
    (hin : inside c f k = true) : inRegion c f (pixelX f k) (pixelY f k) = true := by
  have hrow := rowOf_lt hk
  have hw : 0 < f.w.toNat := Nat.pos_of_mul_pos_right (Nat.zero_lt_of_lt hk)
  have hcol : k % f.w.toNat < f.w.toNat := Nat.mod_lt _ hw
  simp only [inside, Bool.and_eq_true, decide_eq_true_eq] at hin
  rw [inRegion_iff]
  unfold pixelX pixelY at hin ⊢
  omega

end Sys2Proof.Machine

namespace Sys2Proof.Proofs

open Sys2Proof.Machine

/-- Settles O48: each stream row's pass and place in it are known, so the rows rise in pass order, hence differ, and
all H frame rows are met. -/
theorem interlaceRows : Obligations.InterlaceRows :=
  fun _ => ⟨fun _ => ilrow_lt, fun _ => exists_ilrow_eq, fun _ _ hlt _ => ilrow_rises hlt⟩

/-- Settles O49: a cell gives the pixel's column and row, and these its stream index. -/
theorem pixelsDistinct : Obligations.PixelsDistinct :=
  fun _ _ _ _ _ hk hk' h => pixelCell_inj hk hk' h

end Sys2Proof.Proofs

/-! ## CANVAS_INIT fills the canvas (R171, R172, R232) -/

namespace Sys2Proof.Machine

open Claims (quiet finished)

/-! Runs of one operation. -/

/-- A run whose first `n` steps repeat one piece of work, and whose next one ends the row. -/
theorem core_run_iterate {M : Host.Core} {f : M.State → M.State} {s t : M.State} {n : Nat}
    (hwork : ∀ k, k < n → M.step (f^[k] s) = .next (f (f^[k] s))) (hlast : M.step (f^[n] s) = .next t) (m : Nat) :
    M.run (n + 1 + m) s = M.run m t := by
  induction n generalizing s with
  | zero =>
    have hend : M.step s = .next t := hlast
    rw [Nat.add_comm (0 + 1) m, core_run_succ hend]
  | succ n ih =>
    have hfirst : M.step s = .next (f s) := hwork 0 (Nat.succ_pos n)
    rw [Nat.add_right_comm, core_run_succ hfirst]
    exact ih (fun k hk => hwork (k + 1) (Nat.succ_lt_succ hk)) hlast

/-- The Engine is in a state with no abort asked for, and no Host access is pending: the next step is its own. -/
structure RunsAlone (eng : EngState) (s : State) : Prop where
  eng_eq : s.eng = eng
  no_abort : s.status.abortReq = false
  no_event : s.host.events = []

section

variable {s : State}

theorem RunsAlone.step_eq {eng : EngState} (h : RunsAlone eng s) : step s = engineStep s := step_of_no_event h.no_event

theorem RunsAlone.init (h : RunsAlone .init s) : step s = .next (initStep s) :=
  h.step_eq.trans (by simp [engineStep, h.no_abort, h.eng_eq])

theorem RunsAlone.compV (h : RunsAlone .compV s) : step s = .next (compVStep s) :=
  h.step_eq.trans (by simp [engineStep, h.no_abort, h.eng_eq])

theorem RunsAlone.compS (h : RunsAlone .compS s) : step s = .next (compSStep s) :=
  h.step_eq.trans (by simp [engineStep, h.no_abort, h.eng_eq])

theorem RunsAlone.compW (h : RunsAlone .compW s) : step s = .next (compWStep s) :=
  h.step_eq.trans (by simp [engineStep, h.no_abort, h.eng_eq])

theorem RunsAlone.disp (h : RunsAlone .disp s) : step s = .next (dispStep s) :=
  h.step_eq.trans (by simp [engineStep, h.no_abort, h.eng_eq])

end

theorem busy_of_quiet {s : State} (h : quiet s) : busy s = false := (busy_eq_false_iff s).mpr h.1

/-- PROGRESS after `n` steps of one each that do not overflow it. -/
theorem toNat_add_ofNat {p : Word} {m n : Nat} (hp : p.toNat = m) (hn : m + n < 2 ^ 32) :
    (p + BitVec.ofNat 32 n).toNat = m + n := by
  rw [BitVec.toNat_add, hp, BitVec.toNat_ofNat, Nat.mod_eq_of_lt (by omega : n < 2 ^ 32), Nat.mod_eq_of_lt hn]

theorem toNat_zero_add_ofNat {n : Nat} (hn : n < 2 ^ 32) : ((0 : Word) + BitVec.ofNat 32 n).toNat = n :=
  (toNat_add_ofNat rfl ((Nat.zero_add n).trans_lt hn)).trans (Nat.zero_add n)

theorem add_ofNat_succ (p : Word) (k : Nat) : p + BitVec.ofNat 32 k + 1 = p + BitVec.ofNat 32 (k + 1) := by
  rw [BitVec.ofNat_add, BitVec.add_assoc]
  rfl

/-! The fill. -/

/-- `k` cells of INIT_STEP advance n and PROGRESS by `k` and write CANVAS; nothing else changes (R172). -/
theorem fillCell_iterate_eq (u : State) (k : Nat) :
    fillCell^[k] u = { u with
      work := { u.work with n := u.work.n + k }
      progress := u.progress + BitVec.ofNat 32 k
      canvas := (fillCell^[k] u).canvas } := by
  induction k with
  | zero => simp
  | succ k ih =>
    rw [Function.iterate_succ_apply', ih, ← add_ofNat_succ]
    rfl

theorem canvasCell_fillCell (s : State) (n : Nat) :
    canvasCell (fillCell s) n = if n = s.work.n then s.canvasLatch.bgRgb else canvasCell s n := by
  simp only [canvasCell, fillCell_canvas, Store.get_put]

/-- The cells from n on that have been filled hold the background colour (R172). -/
theorem canvasCell_fillCell_iterate (u : State) (k n : Nat) :
    canvasCell (fillCell^[k] u) n =
      if u.work.n ≤ n ∧ n < u.work.n + k then u.canvasLatch.bgRgb else canvasCell u n := by
  induction k with
  | zero => rw [if_neg (by omega)]; rfl
  | succ k ih =>
    have hwork : (fillCell^[k] u).work.n = u.work.n + k := by rw [fillCell_iterate_eq]
    have hcolour : (fillCell^[k] u).canvasLatch.bgRgb = u.canvasLatch.bgRgb := by rw [fillCell_iterate_eq]
    rw [Function.iterate_succ_apply', canvasCell_fillCell, hwork, hcolour, ih]
    by_cases hlast : n = u.work.n + k
    · rw [if_pos hlast, if_pos (by omega)]
    · rw [if_neg hlast]
      exact if_congr (by omega) rfl rfl

theorem RunsAlone.fillCell_iterate {u : State} (h : RunsAlone .init u) (k : Nat) :
    RunsAlone .init (fillCell^[k] u) := by
  rw [fillCell_iterate_eq]
  exact { h with }

theorem initStep_of_open {s : State} (h : s.work.n + 1 ≠ canvasArea s) : initStep s = fillCell s := by
  rw [initStep, if_neg h]

theorem initStep_of_last {s : State} (h : s.work.n + 1 = canvasArea s) :
    initStep s = finish { fillCell s with status := { s.status with canvasValid := true } } := by
  rw [initStep, if_pos h]

/-- The state in which a CANVAS_INIT ends that has filled the canvas. -/
def filled (u : State) : State :=
  finish { fillCell^[canvasArea u] u with status := { u.status with canvasValid := true } }

/-- A fill left to the Engine ends with the last cell of the canvas (R172, R232). -/
theorem RunsAlone.run_fill {u : State} (h : RunsAlone .init u) (hfirst : u.work.n = 0) (hpos : 0 < canvasArea u) :
    core.run (canvasArea u) u = .next (filled u) := by
  obtain ⟨k, hk⟩ : ∃ k, canvasArea u = k + 1 := ⟨_, (Nat.sub_add_cancel hpos).symm⟩
  have hwork : ∀ j, (fillCell^[j] u).work.n = u.work.n + j := fun j => by rw [fillCell_iterate_eq]
  have harea : ∀ j, canvasArea (fillCell^[j] u) = canvasArea u := fun j => by rw [fillCell_iterate_eq]; rfl
  have hstatus : (fillCell^[k] u).status = u.status := by rw [fillCell_iterate_eq]
  have hopen : ∀ j, j < k → (fillCell^[j] u).work.n + 1 ≠ canvasArea (fillCell^[j] u) := fun j hj => by
    rw [hwork, harea]; omega
  have hlast : (fillCell^[k] u).work.n + 1 = canvasArea (fillCell^[k] u) := by rw [hwork, harea]; omega
  rw [filled, hk, Function.iterate_succ_apply', ← hstatus]
  refine core_run_iterate (M := core) (f := fillCell) (fun j hj => ?_) ?_ 0
  · exact (h.fillCell_iterate j).init.trans (congrArg _ (initStep_of_open (hopen j hj)))
  · exact (h.fillCell_iterate k).init.trans (congrArg _ (initStep_of_last hlast))

theorem filled_eq (u : State) :
    filled u = { u with
      eng := .idle
      status := finished { u.status with canvasValid := true }
      progress := u.progress + BitVec.ofNat 32 (canvasArea u)
      work := (filled u).work
      canvas := (filled u).canvas } := by
  rw [filled, fillCell_iterate_eq]
  rfl

theorem canvasCell_filled {u : State} (hfirst : u.work.n = 0) (n : Nat) :
    canvasCell (filled u) n = if n < canvasArea u then u.canvasLatch.bgRgb else canvasCell u n :=
  (canvasCell_fillCell_iterate u (canvasArea u) n).trans (if_congr (by omega) rfl rfl)

theorem canvasArea_lt (s : State) : canvasArea s < 2 ^ 32 :=
  calc canvasArea s < 2 ^ 16 * 2 ^ 16 := Nat.mul_lt_mul'' s.canvasLatch.cw.isLt s.canvasLatch.ch.isLt
    _ = 2 ^ 32 := rfl

end Sys2Proof.Machine

namespace Sys2Proof.Proofs

open Sys2Proof.Machine

/-- Settles O43: CW × CH repetitions of one cell's fill, the last of which finishes. -/
theorem canvasInitFills : Obligations.CanvasInitFills := by
  intro s hq
  dsimp only
  rw [← cwCfg_toNat, ← chCfg_toNat, ← sizeLegal_iff_legalSize, ← gctSize_eq]
  intro hsize hpresent hindex
  obtain ⟨hw, hh, -⟩ := sizeLegal_iff.mp hsize
  have halone : RunsAlone .init (startCanvasInit s) := ⟨rfl, hq.2.1, hq.2.2⟩
  have hframe := filled_eq (startCanvasInit s)
  refine ⟨startCanvasInit s, _, exec_canvasInit_of_checks (busy_of_quiet hq) hsize ⟨hpresent, hindex⟩,
    halone.run_fill rfl (Nat.mul_pos hw hh), ?_, ?_, fun n => canvasCell_filled rfl n⟩
  · rw [hframe]
  · rw [hframe]
    exact toNat_zero_add_ofNat (canvasArea_lt _)

end Sys2Proof.Proofs

/-! ## COMPOSE draws the frame or refuses it (R175 to R187, R232, R244) -/

namespace Sys2Proof.Machine

open Claims (quiet finished drawn pixelCell)

/-! The validation. -/

/-- `k` indices of COMP_V_STEP advance s and PROGRESS by `k`; nothing else changes (R178). -/
theorem countIndex_iterate_eq (u : State) (k : Nat) :
    countIndex^[k] u = { u with
      work := { u.work with s := u.work.s + k }
      progress := u.progress + BitVec.ofNat 32 k } := by
  induction k with
  | zero => simp
  | succ k ih =>
    rw [Function.iterate_succ_apply', ih, ← add_ofNat_succ]
    rfl

theorem compVStep_of_missing {s : State} (h : inTable s.frameLatch (idxByte s s.work.s) = false) :
    compVStep s =
      raise .invalidImage (BitVec.ofNat 32 s.work.s) ((idxByte s s.work.s).setWidth 32) s := by
  rw [compVStep, if_pos h]

theorem compVStep_of_open {s : State} (hin : inTable s.frameLatch (idxByte s s.work.s) = true)
    (h : s.work.s + 1 ≠ frameArea s.frameLatch) : compVStep s = countIndex s := by
  rw [compVStep, if_neg (by simp [hin]), if_neg h]

theorem compVStep_of_last {s : State} (hin : inTable s.frameLatch (idxByte s s.work.s) = true)
    (h : s.work.s + 1 = frameArea s.frameLatch) : compVStep s = { countIndex s with eng := .compS } := by
  rw [compVStep, if_neg (by simp [hin]), if_pos h]

/-- COMPOSE left to the Engine, at its first index. -/
structure ComposesAlone (u : State) : Prop extends RunsAlone .compV u where
  first : u.work.s = 0

section

variable {u : State} (h : ComposesAlone u)

include h

theorem ComposesAlone.work_countIndex (k : Nat) : (countIndex^[k] u).work.s = k := by
  rw [countIndex_iterate_eq]
  exact (congrArg (· + k) h.first).trans (Nat.zero_add k)

theorem ComposesAlone.step_countIndex (k : Nat) :
    step (countIndex^[k] u) = .next (compVStep (countIndex^[k] u)) := by
  refine RunsAlone.compV ?_
  rw [countIndex_iterate_eq]
  exact { h.toRunsAlone with }

/-- COMP_V_STEP at index `k` looks it up in the table that was latched. -/
theorem ComposesAlone.inTable_countIndex (k : Nat) :
    inTable (countIndex^[k] u).frameLatch (idxByte (countIndex^[k] u) (countIndex^[k] u).work.s) =
      inTable u.frameLatch (idxByte u k) := by
  rw [h.work_countIndex, countIndex_iterate_eq]
  rfl

/-- An index with a table entry that is not the last one is counted (R178). -/
theorem ComposesAlone.step_of_open {k : Nat} (hin : inTable u.frameLatch (idxByte u k) = true)
    (hk : k + 1 < frameArea u.frameLatch) : step (countIndex^[k] u) = .next (countIndex (countIndex^[k] u)) := by
  have hlatch : (countIndex^[k] u).frameLatch = u.frameLatch := by rw [countIndex_iterate_eq]
  rw [h.step_countIndex,
    compVStep_of_open ((h.inTable_countIndex k).trans hin) (by rw [h.work_countIndex, hlatch]; omega)]

/-- The validation ends with INVALID_IMAGE at the first index that has no table entry (R178, R179). -/
theorem ComposesAlone.run_refuse {k : Nat} (hk : k < frameArea u.frameLatch)
    (hmissing : inTable u.frameLatch (idxByte u k) = false)
    (hbefore : ∀ n, n < k → inTable u.frameLatch (idxByte u n) = true) :
    core.run (k + 1) u =
      .next (raise .invalidImage (BitVec.ofNat 32 k) ((idxByte u k).setWidth 32) (countIndex^[k] u)) := by
  have hindex : idxByte (countIndex^[k] u) = idxByte u := by rw [countIndex_iterate_eq]; rfl
  refine core_run_iterate (M := core) (f := countIndex) (fun j hj => h.step_of_open (hbefore j hj) (by omega)) ?_ 0
  refine (h.step_countIndex k).trans (congrArg _ ?_)
  rw [compVStep_of_missing ((h.inTable_countIndex k).trans hmissing), h.work_countIndex, hindex]

end

/-- COMPOSE when every index has been validated and SNAP holds the canvas (R180). -/
def snapped (u : State) : State :=
  { snapCopy u with
    eng := .compW
    work := { u.work with s := 0 }
    progress := u.progress + BitVec.ofNat 32 (frameArea u.frameLatch) }

/-- Every index validated, and the canvas copied: N + 1 steps (R178, R180). -/
theorem ComposesAlone.run_validate {u : State} (h : ComposesAlone u) (hpos : 0 < frameArea u.frameLatch)
    (hin : ∀ n, n < frameArea u.frameLatch → inTable u.frameLatch (idxByte u n) = true) (m : Nat) :
    core.run (frameArea u.frameLatch + 1 + m) u = core.run m (snapped u) := by
  obtain ⟨k, hk⟩ : ∃ k, frameArea u.frameLatch = k + 1 := ⟨_, (Nat.sub_add_cancel hpos).symm⟩
  have hlatch : (countIndex^[k] u).frameLatch = u.frameLatch := by rw [countIndex_iterate_eq]
  have hlast : step (countIndex^[k] u) = .next { countIndex^[k + 1] u with eng := .compS } := by
    rw [h.step_countIndex, compVStep_of_last ((h.inTable_countIndex k).trans (hin k (by omega)))
      (by rw [h.work_countIndex, hlatch, hk]), Function.iterate_succ_apply']
  have halone : RunsAlone .compS { countIndex^[k + 1] u with eng := .compS } := by
    rw [countIndex_iterate_eq]
    exact ⟨rfl, h.no_abort, h.no_event⟩
  have hcopy : compSStep { countIndex^[k + 1] u with eng := .compS } = snapped u := by
    rw [countIndex_iterate_eq, snapped, hk]
    rfl
  have hvalidated := core_run_iterate (M := core) (f := countIndex)
    (fun j hj => h.step_of_open (hin j (by omega)) (by omega)) hlast (1 + m)
  rw [hk, Nat.add_assoc, hvalidated, Nat.add_comm 1 m]
  exact core_run_succ (M := core) (halone.compS.trans (congrArg _ hcopy)) m

/-! The drawing. -/

/-- COMP_W_STEP but for its end: one stream index, written if it is drawn (R182). -/
def drawIndex (s : State) : State := countIndex (writePixel s)

theorem compWStep_of_open {s : State} (h : s.work.s + 1 ≠ frameArea s.frameLatch) : compWStep s = drawIndex s := by
  rw [compWStep, if_neg h, drawIndex]

theorem compWStep_of_last {s : State} (h : s.work.s + 1 = frameArea s.frameLatch) :
    compWStep s = finish { drawIndex s with status := { s.status with framePending := true } } := by
  rw [compWStep, if_pos h, drawIndex]

/-- `k` indices advance s and PROGRESS by `k` and write CANVAS; nothing else changes (R182). -/
theorem drawIndex_iterate_eq (w : State) (k : Nat) :
    drawIndex^[k] w = { w with
      work := { w.work with s := w.work.s + k }
      progress := w.progress + BitVec.ofNat 32 k
      canvas := (drawIndex^[k] w).canvas } := by
  induction k with
  | zero => simp
  | succ k ih =>
    rw [Function.iterate_succ_apply', drawIndex, writePixel_eq, ih, ← add_ofNat_succ]
    rfl

section

variable {w : State} (hfirst : w.work.s = 0)

include hfirst

theorem work_drawIndex (k : Nat) : (drawIndex^[k] w).work.s = k := by
  rw [drawIndex_iterate_eq]
  exact (congrArg (· + k) hfirst).trans (Nat.zero_add k)

/-- The cell of index `k` gets its colour if the index is drawn; every other cell is as before (R182 to R184). -/
theorem canvasCell_drawIndex_succ (k n : Nat) :
    canvasCell (drawIndex^[k + 1] w) n =
      if transparent w.frameLatch (idxByte w k) = false ∧ inside w.canvasLatch w.frameLatch k = true
          ∧ n = pixelCell w k
      then tableColour w (idxByte w k).toNat else canvasCell (drawIndex^[k] w) n := by
  have hwork := work_drawIndex hfirst k
  rw [Function.iterate_succ_apply']
  refine (canvasCell_writePixel (drawIndex^[k] w) n).trans ?_
  rw [hwork, drawIndex_iterate_eq]
  rfl

/-- A cell that is no drawn index's keeps what it holds. -/
theorem canvasCell_drawIndex_kept {k n : Nat} (h : ∀ j, j < k → drawn w j → n ≠ pixelCell w j) :
    canvasCell (drawIndex^[k] w) n = canvasCell w n := by
  induction k with
  | zero => rfl
  | succ k ih =>
    rw [canvasCell_drawIndex_succ hfirst, if_neg fun ⟨hopaque, hin, hcell⟩ =>
      h k (Nat.lt_succ_self k) ⟨hopaque, hin⟩ hcell]
    exact ih fun j hj => h j (Nat.lt_succ_of_lt hj)

/-- A drawn index's cell holds its colour: no later index is written there. -/
theorem canvasCell_drawIndex_drawn {j k : Nat} (hj : j < k) (hd : drawn w j) :
    canvasCell (drawIndex^[k] w) (pixelCell w j) = tableColour w (idxByte w j).toNat := by
  induction k with
  | zero => exact absurd hj (Nat.not_lt_zero j)
  | succ k ih =>
    rw [canvasCell_drawIndex_succ hfirst]
    rcases Nat.lt_succ_iff_lt_or_eq.mp hj with hlt | rfl
    · rw [if_neg fun ⟨_, hin, hcell⟩ => absurd (pixelCell_inj hd.2 hin hcell) (Nat.ne_of_lt hlt)]
      exact ih hlt
    · rw [if_pos ⟨hd.1, hd.2, rfl⟩]

/-- The drawing left to the Engine ends with the last index (R182, R232). -/
theorem RunsAlone.run_draw (h : RunsAlone .compW w) (hpos : 0 < frameArea w.frameLatch) :
    core.run (frameArea w.frameLatch) w =
      .next (finish { drawIndex^[frameArea w.frameLatch] w with
        status := { w.status with framePending := true } }) := by
  obtain ⟨k, hk⟩ : ∃ k, frameArea w.frameLatch = k + 1 := ⟨_, (Nat.sub_add_cancel hpos).symm⟩
  have halone : ∀ j, RunsAlone .compW (drawIndex^[j] w) := fun j => by
    rw [drawIndex_iterate_eq]
    exact { h with }
  have hlatch : ∀ j, (drawIndex^[j] w).frameLatch = w.frameLatch := fun j => by rw [drawIndex_iterate_eq]
  have hstatus : (drawIndex^[k] w).status = w.status := by rw [drawIndex_iterate_eq]
  have hopen : ∀ j, j < k → (drawIndex^[j] w).work.s + 1 ≠ frameArea (drawIndex^[j] w).frameLatch := fun j hj => by
    rw [work_drawIndex hfirst, hlatch]; omega
  have hlast : (drawIndex^[k] w).work.s + 1 = frameArea (drawIndex^[k] w).frameLatch := by
    rw [work_drawIndex hfirst, hlatch, hk]
  rw [hk, Function.iterate_succ_apply', ← hstatus]
  refine core_run_iterate (M := core) (f := drawIndex) (fun j hj => ?_) ?_ 0
  · exact (halone j).compW.trans (congrArg _ (compWStep_of_open (hopen j hj)))
  · exact (halone k).compW.trans (congrArg _ (compWStep_of_last hlast))

end

/-! The whole of COMPOSE. -/

/-- The state in which a COMPOSE ends that has drawn its frame. -/
def composed (u : State) : State :=
  finish { drawIndex^[frameArea u.frameLatch] (snapped u) with status := { u.status with framePending := true } }

theorem composed_eq (u : State) :
    composed u = { u with
      eng := .idle
      status := finished { u.status with framePending := true }
      progress := (composed u).progress
      work := (composed u).work
      canvas := (composed u).canvas
      snap := (composed u).snap } := by
  rw [composed, drawIndex_iterate_eq]
  rfl

theorem ComposesAlone.run_compose {u : State} (h : ComposesAlone u) (hpos : 0 < frameArea u.frameLatch)
    (hin : ∀ n, n < frameArea u.frameLatch → inTable u.frameLatch (idxByte u n) = true) :
    core.run (2 * frameArea u.frameLatch + 1) u = .next (composed u) := by
  have halone : RunsAlone .compW (snapped u) := ⟨rfl, h.no_abort, h.no_event⟩
  rw [show 2 * frameArea u.frameLatch + 1 = frameArea u.frameLatch + 1 + frameArea u.frameLatch by omega,
    h.run_validate hpos hin]
  exact RunsAlone.run_draw (w := snapped u) rfl halone hpos

theorem composed_progress {u : State} (hp : u.progress = 0) (hsmall : 2 * frameArea u.frameLatch < 2 ^ 32) :
    (composed u).progress.toNat = 2 * frameArea u.frameLatch := by
  have hvalidated : (snapped u).progress.toNat = frameArea u.frameLatch := by
    rw [snapped, hp]
    exact toNat_zero_add_ofNat (by omega)
  rw [composed, drawIndex_iterate_eq, Nat.two_mul]
  exact toNat_add_ofNat hvalidated (by omega)

theorem snapCell_composed (u : State) (n : Nat) :
    snapCell (composed u) n = if n < canvasArea u then canvasCell u n else snapCell u n := by
  rw [composed, drawIndex_iterate_eq]
  exact snapCell_snapCopy u n

/-- An accepted COMPOSE of an idle block that is left alone. -/
theorem composesAlone_startCompose {s : State} (hq : quiet s) : ComposesAlone (startCompose s) where
  eng_eq := rfl
  no_abort := hq.2.1
  no_event := hq.2.2
  first := rfl

end Sys2Proof.Machine

namespace Sys2Proof.Proofs

open Sys2Proof.Machine

/-- Settles O44: the validation, the copy and the drawing, one after another. -/
theorem composeDraws : Obligations.ComposeDraws := by
  intro s hq hinv hcanvas hidx hpending hdisp
  have hpos : 0 < outLength s := hinv.index_valid hidx
  have hsmall : 2 * outLength s < 2 ^ 32 := by
    have hfits := hinv.index_fits
    have hcapacity := (Params.capacities hinv.params_legal).2.1
    omega
  refine ⟨startCompose s, exec_compose_of_checks (busy_of_quiet hq) ⟨hcanvas, hidx, hpending⟩ hdisp, fun hin => ?_⟩
  exact ⟨composed (startCompose s), (composesAlone_startCompose hq).run_compose hpos hin, composed_eq _,
    composed_progress rfl hsmall,
    fun k hk hd => canvasCell_drawIndex_drawn (w := snapped (startCompose s)) rfl hk hd,
    fun n hn => canvasCell_drawIndex_kept (w := snapped (startCompose s)) rfl hn, snapCell_composed _⟩

/-- Settles O45: the validation stops at the lowest index with no table entry, before anything is copied or drawn. -/
theorem composeRefusesImage : Obligations.ComposeRefusesImage := by
  intro s k hq hinv hcanvas hidx hpending hdisp hk
  have hsmall := outLength_lt s
  refine ⟨startCompose s, exec_compose_of_checks (busy_of_quiet hq) ⟨hcanvas, hidx, hpending⟩ hdisp,
    fun hmissing hbefore => ?_⟩
  refine ⟨_, (composesAlone_startCompose hq).run_refuse hk hmissing hbefore, ?_⟩
  rw [countIndex_iterate_eq]
  refine ⟨rfl, ?_, ?_, ?_, hcanvas, hpending, hidx, rfl, rfl⟩
  · exact BitVec.toNat_ofNat .. |>.trans (Nat.mod_eq_of_lt (by omega))
  · exact BitVec.toNat_setWidth_of_le (by decide)
  · exact toNat_zero_add_ofNat (by omega)

end Sys2Proof.Proofs

/-! ## DISPOSE restores REGION (R185, R190 to R196, R232) -/

namespace Sys2Proof.Machine

open Claims (finished regionSize)

/-! The positions of REGION in raster order. -/

/-- Row by row, the positions of `h` rows of `w` columns have numbers below `w * h`. -/
theorem rasterIndex_lt {w h col row : Nat} (hcol : col < w) (hrow : row < h) : row * w + col < w * h :=
  calc row * w + col < row * w + w := Nat.add_lt_add_left hcol _
    _ = w * (row + 1) := by rw [Nat.mul_comm w, Nat.succ_mul]
    _ ≤ w * h := Nat.mul_le_mul_left w hrow

theorem regionIndex_lt_size {s : State} {x y : Nat} (h : inRegion s.canvasLatch s.frameLatch x y = true) :
    regionIndex s.canvasLatch s.frameLatch x y < regionSize s := by
  simp only [inRegion, Bool.and_eq_true, decide_eq_true_eq] at h
  exact rasterIndex_lt (by omega) (by omega)

/-- A position of REGION is known by its number. -/
theorem regionIndex_inj {c : CanvasLatch} {f : FrameLatch} {x y x' y' : Nat} (h : inRegion c f x y = true)
    (h' : inRegion c f x' y' = true) (heq : regionIndex c f x y = regionIndex c f x' y') : x = x' ∧ y = y' := by
  simp only [inRegion, Bool.and_eq_true, decide_eq_true_eq] at h h'
  have hpos : 0 < regionRight c f - f.left.toNat := by omega
  obtain ⟨hrow, hcol⟩ := (Nat.div_mod_unique hpos (d := y - f.top.toNat)).mpr
    ⟨show _ = regionIndex c f x y by rw [regionIndex, Nat.mul_comm, Nat.add_comm],
      show x - f.left.toNat < regionRight c f - f.left.toNat by omega⟩
  obtain ⟨hrow', hcol'⟩ := (Nat.div_mod_unique hpos (d := y' - f.top.toNat)).mpr
    ⟨show _ = regionIndex c f x y by rw [heq, regionIndex, Nat.mul_comm, Nat.add_comm],
      show x' - f.left.toNat < regionRight c f - f.left.toNat by omega⟩
  omega

/-- The walk ends at the last position of REGION (R193). -/
theorem regionIndex_of_end {s : State} {x y : Nat} (h : inRegion s.canvasLatch s.frameLatch x y = true)
    (hend : nextInRegion s.canvasLatch s.frameLatch x y = none) :
    regionIndex s.canvasLatch s.frameLatch x y + 1 = regionSize s := by
  simp only [inRegion, Bool.and_eq_true, decide_eq_true_eq] at h
  unfold nextInRegion at hend
  split at hend
  · cases hend
  · split at hend
    · cases hend
    · have hrows : regionBottom s.canvasLatch s.frameLatch - s.frameLatch.top.toNat
          = y - s.frameLatch.top.toNat + 1 := by omega
      rw [regionIndex, regionSize, hrows, Nat.mul_comm _ (_ + 1), Nat.succ_mul]
      omega

theorem regionSize_pos_iff (s : State) : 0 < regionSize s ↔ regionEmpty s.canvasLatch s.frameLatch = false := by
  simp only [regionSize, regionEmpty, Nat.pos_iff_ne_zero, ne_eq, Nat.mul_eq_zero, not_or,
    Bool.or_eq_false_iff, decide_eq_false_iff_not]
  omega

/-! One cell of the walk. -/

/-- DISP_STEP but for its end: one cell restored, and the walk at the next position if there is one (R193). -/
def restoreCell (s : State) : State :=
  { restorePixel s with
    progress := s.progress + 1
    work := { s.work with
      x := ((nextInRegion s.canvasLatch s.frameLatch s.work.x s.work.y).getD (s.work.x, s.work.y)).1
      y := ((nextInRegion s.canvasLatch s.frameLatch s.work.x s.work.y).getD (s.work.x, s.work.y)).2 } }

theorem dispStep_of_next {s : State} (h : nextInRegion s.canvasLatch s.frameLatch s.work.x s.work.y ≠ none) :
    dispStep s = restoreCell s := by
  obtain ⟨p, hp⟩ := Option.ne_none_iff_exists'.mp h
  rw [dispStep, restoreCell, restorePixel_eq, hp]
  rfl

theorem dispStep_of_end {s : State} (h : nextInRegion s.canvasLatch s.frameLatch s.work.x s.work.y = none) :
    dispStep s = finish (restoreCell s) := by
  rw [dispStep, restoreCell, restorePixel_eq, h]
  rfl

/-- `k` cells of the walk move it, advance PROGRESS by `k` and write CANVAS; nothing else changes (R193). -/
theorem restoreCell_iterate_eq (u : State) (k : Nat) :
    restoreCell^[k] u = { u with
      work := (restoreCell^[k] u).work
      progress := u.progress + BitVec.ofNat 32 k
      canvas := (restoreCell^[k] u).canvas } := by
  induction k with
  | zero => simp
  | succ k ih =>
    rw [Function.iterate_succ_apply', restoreCell, restorePixel_eq, ih, ← add_ofNat_succ]

/-- What a cell of REGION is restored to (R193, R194). -/
def restoredColour (s : State) (x y : Nat) : Colour :=
  if s.frameLatch.disp = 2 then s.canvasLatch.bgRgb else snapCell s (cellOf s x y)

theorem canvasCell_restoreCell {s : State} (hdisp : s.frameLatch.disp = 2 ∨ s.frameLatch.disp = 3) (n : Nat) :
    canvasCell (restoreCell s) n =
      if n = cellOf s s.work.x s.work.y then restoredColour s s.work.x s.work.y else canvasCell s n := by
  show canvasCell (restorePixel s) n = _
  unfold restorePixel restoredColour
  by_cases hbackground : s.frameLatch.disp = 2
  · rw [if_pos hbackground, if_pos hbackground]
    exact canvasCell_canvasPut _ _ _ _
  · rw [if_neg hbackground, if_neg hbackground, if_pos (hdisp.resolve_left hbackground)]
    exact canvasCell_canvasPut _ _ _ _

/-! The walk. -/

/-- The state in which a DISPOSE ends that has restored REGION. -/
def disposed (u : State) : State := finish (restoreCell^[regionSize u] u)

theorem disposed_eq (u : State) :
    disposed u = { u with
      eng := .idle
      status := finished u.status
      progress := u.progress + BitVec.ofNat 32 (regionSize u)
      work := (disposed u).work
      canvas := (disposed u).canvas } := by
  rw [disposed, restoreCell_iterate_eq]
  rfl

/-- DISPOSE left to the Engine, at the first position of a REGION that is not empty. -/
structure RestoresAlone (u : State) : Prop extends RunsAlone .disp u where
  first : u.work.x = u.frameLatch.left.toNat ∧ u.work.y = u.frameLatch.top.toNat
  nonempty : 0 < regionSize u
  restores : u.frameLatch.disp = 2 ∨ u.frameLatch.disp = 3

section

variable {u : State} (h : RestoresAlone u)

/-- The walk after `k` cells is where the walk stands at number `k`, in the latches of its start. -/
theorem nextInRegion_restoreCell (u : State) (k : Nat) :
    nextInRegion (restoreCell^[k] u).canvasLatch (restoreCell^[k] u).frameLatch (restoreCell^[k] u).work.x
        (restoreCell^[k] u).work.y =
      nextInRegion u.canvasLatch u.frameLatch (restoreCell^[k] u).work.x (restoreCell^[k] u).work.y := by
  conv_lhs => rw [restoreCell_iterate_eq]

include h

/-- After `k` cells the walk is at position number `k` of REGION (R193). -/
theorem RestoresAlone.position {k : Nat} (hk : k < regionSize u) :
    inRegion u.canvasLatch u.frameLatch (restoreCell^[k] u).work.x (restoreCell^[k] u).work.y = true
      ∧ regionIndex u.canvasLatch u.frameLatch (restoreCell^[k] u).work.x (restoreCell^[k] u).work.y = k := by
  induction k with
  | zero =>
    rw [Function.iterate_zero_apply, h.first.1, h.first.2]
    exact ⟨inRegion_start ((regionSize_pos_iff u).mp h.nonempty), by simp [regionIndex]⟩
  | succ k ih =>
    obtain ⟨hin, hindex⟩ := ih (by omega)
    cases hnext : nextInRegion u.canvasLatch u.frameLatch (restoreCell^[k] u).work.x (restoreCell^[k] u).work.y with
    | none =>
      have hend := regionIndex_of_end hin hnext
      omega
    | some p =>
      have hwork : (restoreCell^[k + 1] u).work.x = p.1 ∧ (restoreCell^[k + 1] u).work.y = p.2 := by
        rw [Function.iterate_succ_apply', restoreCell, nextInRegion_restoreCell, hnext]
        exact ⟨rfl, rfl⟩
      rw [hwork.1, hwork.2]
      exact ⟨nextInRegion_mem hin hnext, (regionIndex_next hin hnext).trans (congrArg (· + 1) hindex)⟩

/-- The walk left to the Engine ends with the last cell of REGION (R193, R232). -/
theorem RestoresAlone.run_restore : core.run (regionSize u) u = .next (disposed u) := by
  obtain ⟨k, hk⟩ : ∃ k, regionSize u = k + 1 := ⟨_, (Nat.sub_add_cancel h.nonempty).symm⟩
  have halone : ∀ j, RunsAlone .disp (restoreCell^[j] u) := fun j => by
    rw [restoreCell_iterate_eq]
    exact { h.toRunsAlone with }
  have hopen : ∀ j, j < k → nextInRegion u.canvasLatch u.frameLatch (restoreCell^[j] u).work.x
      (restoreCell^[j] u).work.y ≠ none := fun j hj hend => by
    obtain ⟨hin, hindex⟩ := h.position (k := j) (by omega)
    have hlast := regionIndex_of_end hin hend
    omega
  have hend : nextInRegion u.canvasLatch u.frameLatch (restoreCell^[k] u).work.x (restoreCell^[k] u).work.y = none := by
    obtain ⟨hin, hindex⟩ := h.position (k := k) (by omega)
    rw [Option.eq_none_iff_forall_ne_some]
    intro p hp
    have hnext := regionIndex_next hin hp
    have hsize := regionIndex_lt_size (nextInRegion_mem hin hp)
    omega
  rw [← nextInRegion_restoreCell] at hend
  rw [disposed, hk, Function.iterate_succ_apply']
  refine core_run_iterate (M := core) (f := restoreCell) (fun j hj => ?_) ?_ 0
  · have hnext := hopen j hj
    rw [← nextInRegion_restoreCell] at hnext
    exact (halone j).disp.trans (congrArg _ (dispStep_of_next hnext))
  · exact (halone k).disp.trans (congrArg _ (dispStep_of_end hend))

/-- The `k`-th cell of the walk is restored; every other cell is as before. -/
theorem RestoresAlone.canvasCell_succ (k n : Nat) :
    canvasCell (restoreCell^[k + 1] u) n =
      if n = cellOf u (restoreCell^[k] u).work.x (restoreCell^[k] u).work.y
      then restoredColour u (restoreCell^[k] u).work.x (restoreCell^[k] u).work.y
      else canvasCell (restoreCell^[k] u) n := by
  have hframe := restoreCell_iterate_eq u k
  have hcolour : restoredColour (restoreCell^[k] u) = restoredColour u := by rw [hframe]; rfl
  have hcell : cellOf (restoreCell^[k] u) = cellOf u := by rw [hframe]; rfl
  have hdisp : (restoreCell^[k] u).frameLatch.disp = 2 ∨ (restoreCell^[k] u).frameLatch.disp = 3 := by
    rw [hframe]; exact h.restores
  rw [Function.iterate_succ_apply', canvasCell_restoreCell hdisp, hcolour, hcell]

/-- A cell outside REGION keeps what it holds. -/
theorem RestoresAlone.canvasCell_kept {k n : Nat} (hk : k ≤ regionSize u)
    (hn : ∀ x y, inRegion u.canvasLatch u.frameLatch x y = true → n ≠ cellOf u x y) :
    canvasCell (restoreCell^[k] u) n = canvasCell u n := by
  induction k with
  | zero => rfl
  | succ k ih =>
    rw [h.canvasCell_succ, if_neg (hn _ _ (h.position hk).1)]
    exact ih (by omega)

/-- A cell of REGION that the walk has passed is restored. -/
theorem RestoresAlone.canvasCell_passed {k x y : Nat} (hk : k ≤ regionSize u)
    (hin : inRegion u.canvasLatch u.frameLatch x y = true) (hpassed : regionIndex u.canvasLatch u.frameLatch x y < k) :
    canvasCell (restoreCell^[k] u) (cellOf u x y) = restoredColour u x y := by
  induction k with
  | zero => exact absurd hpassed (Nat.not_lt_zero _)
  | succ k ih =>
    obtain ⟨hat, hindex⟩ := h.position hk
    rw [h.canvasCell_succ]
    rcases Nat.lt_succ_iff_lt_or_eq.mp hpassed with hlt | hnow
    · rw [if_neg ?_]
      · exact ih (by omega) hlt
      · intro hcell
        obtain ⟨-, -, hx, -, -, -⟩ := (inRegion_iff _ _ _ _).mp hin
        obtain ⟨-, -, hx', -, -, -⟩ := (inRegion_iff _ _ _ _).mp hat
        obtain ⟨rfl, rfl⟩ := cellOf_inj hx hx' hcell
        omega
    · obtain ⟨rfl, rfl⟩ := regionIndex_inj hin hat (hnow.trans hindex.symm)
      rw [if_pos rfl]

end

theorem regionSize_lt (s : State) : regionSize s < 2 ^ 32 :=
  calc regionSize s ≤ canvasArea s :=
      Nat.mul_le_mul ((Nat.sub_le _ _).trans (Nat.min_le_right _ _)) ((Nat.sub_le _ _).trans (Nat.min_le_right _ _))
    _ < 2 ^ 32 := canvasArea_lt s

end Sys2Proof.Machine

namespace Sys2Proof.Proofs

open Sys2Proof.Machine

/-- Settles O46: the walk meets every position of REGION once, the last of which finishes. -/
theorem disposeRestores : Obligations.DisposeRestores := by
  intro s hq hpending hcanvas hdisp hpos
  have hwalk : ¬ NothingToRestore s := by
    rw [NothingToRestore, (regionSize_pos_iff s).mp hpos]
    rcases hdisp with hd | hd <;> rw [hd] <;> decide
  have halone : RestoresAlone (startDispose s) := ⟨⟨rfl, hq.2.1, hq.2.2⟩, ⟨rfl, rfl⟩, hpos, hdisp⟩
  have hframe := disposed_eq (startDispose s)
  refine ⟨startDispose s, _, exec_dispose_of_walk (busy_of_quiet hq) ⟨hpending, hcanvas⟩ hwalk, halone.run_restore,
    ?_, ?_, ?_, ?_, fun x y hin => halone.canvasCell_passed le_rfl hin (regionIndex_lt_size (s := s) hin),
    fun n hn => halone.canvasCell_kept le_rfl hn⟩ <;> rw [hframe]
  · rfl
  · exact hcanvas
  · exact toNat_zero_add_ofNat (regionSize_lt _)

end Sys2Proof.Proofs

/-! ## COMPOSE and its DISPOSE with disposal 3 (R185, R194) -/

namespace Sys2Proof.Machine

open Claims (quiet regionSize)

/-- COMPOSE leaves the cells outside REGION as they are: every drawn pixel lies in it (R177, R196). -/
theorem canvasCell_composed_kept {u : State} {n : Nat}
    (hn : ∀ x y, inRegion u.canvasLatch u.frameLatch x y = true → n ≠ cellOf u x y) :
    canvasCell (composed u) n = canvasCell u n :=
  canvasCell_drawIndex_kept (w := snapped u) rfl fun _ hk hd => hn _ _ (inRegion_pixel hk hd.2)

/-- A DISPOSE with disposal 3, left to the Engine, takes REGION from SNAP and nothing else, an empty REGION included
(R194, R196). -/
theorem dispose_of_previous {t : State} (hq : quiet t) (hready : DisposeReady t.status)
    (hdisp : t.frameLatch.disp = 3) :
    ∃ v z, exec .dispose t = .next v ∧ core.run (regionSize t) v = .next z ∧ z.eng = .idle ∧ z.status.done = true
      ∧ z.status.err = false
      ∧ (∀ x y, inRegion t.canvasLatch t.frameLatch x y = true →
          canvasCell z (cellOf t x y) = snapCell t (cellOf t x y))
      ∧ ∀ n, (∀ x y, inRegion t.canvasLatch t.frameLatch x y = true → n ≠ cellOf t x y) →
          canvasCell z n = canvasCell t n := by
  rcases Nat.eq_zero_or_pos (regionSize t) with hnone | hpos
  · have hempty : regionEmpty t.canvasLatch t.frameLatch = true := by
      rw [← Bool.not_eq_false, ← regionSize_pos_iff, hnone]
      exact Nat.lt_irrefl 0
    have houtside := (regionEmpty_iff _ _).mp hempty
    refine ⟨_, finish (beginDispose (accept 0x5 t)), exec_dispose_of_nothing (busy_of_quiet hq) hready (.inr hempty),
      by rw [hnone]; rfl, rfl, rfl, rfl, fun x y hin => ?_, fun _ _ => rfl⟩
    rw [houtside] at hin
    cases hin
  · obtain ⟨v, z, hv, hrun, hframe, -, -, -, hrestored, hkept⟩ :=
      Proofs.disposeRestores t hq hready.1 hready.2 (.inr hdisp) hpos
    have hstatus : z.status = Claims.finished v.status := by rw [hframe]
    refine ⟨v, z, hv, hrun, by rw [hframe], by rw [hstatus]; rfl, by rw [hstatus]; rfl, fun x y hin => ?_, hkept⟩
    rw [hrestored x y hin, if_neg (by rw [hdisp]; decide)]

end Sys2Proof.Machine

namespace Sys2Proof.Proofs

open Sys2Proof.Machine

/-- Settles O47: what COMPOSE draws lies in REGION, which DISPOSE takes from SNAP, the canvas as it was. -/
theorem restoreToPrevious : Obligations.RestoreToPrevious := by
  intro s hq hinv hcanvas hidx hpending hdisp
  have hlegal : (disposalOf s.regs).toNat ≤ 3 := by rw [hdisp]; decide
  refine ⟨startCompose s, exec_compose_of_checks (busy_of_quiet hq) ⟨hcanvas, hidx, hpending⟩ hlegal, fun hin => ?_⟩
  have hrun := (composesAlone_startCompose hq).run_compose (hinv.index_valid hidx) hin
  have hframe := composed_eq (startCompose s)
  have hquiet : Claims.quiet (composed (startCompose s)) := by
    rw [hframe]
    exact ⟨rfl, hq.2.1, hq.2.2⟩
  have hready : DisposeReady (composed (startCompose s)).status := by
    rw [hframe]
    exact ⟨rfl, hcanvas⟩
  have hprevious : (composed (startCompose s)).frameLatch.disp = 3 := by
    rw [hframe]
    exact hdisp
  obtain ⟨v, z, hv, hwalk, heng, hdone, herr, hrestored, hkept⟩ := dispose_of_previous hquiet hready hprevious
  refine ⟨_, v, z, hrun, hv, hwalk, heng, hdone, herr, fun n => ?_⟩
  have hregion : inRegion (composed (startCompose s)).canvasLatch (composed (startCompose s)).frameLatch
      = inRegion s.canvasLatch (startCompose s).frameLatch := by
    rw [hframe]
    rfl
  have hcell : cellOf (composed (startCompose s)) = cellOf s := by
    rw [hframe]
    rfl
  rw [hregion, hcell] at hrestored hkept
  by_cases hn : ∀ x y, inRegion s.canvasLatch (startCompose s).frameLatch x y = true → n ≠ cellOf s x y
  · exact (hkept n hn).trans (canvasCell_composed_kept hn)
  · push Not at hn
    obtain ⟨x, y, hxy, rfl⟩ := hn
    obtain ⟨-, -, hx, -, -, hy⟩ := (inRegion_iff _ _ _ _).mp hxy
    rw [hrestored x y hxy, snapCell_composed]
    exact if_pos (cellOf_lt hx hy)

end Sys2Proof.Proofs

/-! ## Command control: requests, SOFT_RESET and the end by abort (R220 to R231) -/

namespace Sys2Proof.Machine

open Claims (failed)

/-! How acceptance ends (R223, R225). -/

/-- `t` has the configuration registers and the report of `s`, and of STATUS at most the validity flags differ. -/
structure ReportKept (s t : State) : Prop where
  regs : t.regs = s.regs
  errInfo0 : t.errInfo0 = s.errInfo0
  errInfo1 : t.errInfo1 = s.errInfo1
  status : ∃ canvas idx pending,
    t.status = { s.status with canvasValid := canvas, idxValid := idx, framePending := pending }

/-- The three ways in which a command's acceptance rule ends (R223): it raises, finishes or starts to run. -/
inductive AcceptanceEnd (s : State) : State → Prop
  | raised (e : ErrorCode) (i0 i1 : Word) {u : State} (kept : ReportKept s u) : AcceptanceEnd s (raise e i0 i1 u)
  | finished {u : State} (kept : ReportKept s u) : AcceptanceEnd s (finish u)
  | running {t : State} (kept : ReportKept s t) (runs : busy t = true) : AcceptanceEnd s t

theorem acceptCanvasInit_end (s : State) : AcceptanceEnd s (acceptCanvasInit s) := by
  unfold acceptCanvasInit
  split
  · exact .raised _ _ _ ⟨rfl, rfl, rfl, _, _, _, rfl⟩
  · split
    · exact .raised _ _ _ ⟨rfl, rfl, rfl, _, _, _, rfl⟩
    · exact .running ⟨rfl, rfl, rfl, _, _, _, rfl⟩ rfl

theorem acceptLzw_end (s : State) : AcceptanceEnd s (acceptLzw s) := by
  unfold acceptLzw
  split
  · exact .raised _ _ _ ⟨rfl, rfl, rfl, _, _, _, rfl⟩
  · split
    · exact .raised _ _ _ ⟨rfl, rfl, rfl, _, _, _, rfl⟩
    · split
      · exact .raised _ _ _ ⟨rfl, rfl, rfl, _, _, _, rfl⟩
      · exact .running ⟨rfl, rfl, rfl, _, _, _, rfl⟩ rfl

theorem acceptCompose_end (s : State) : AcceptanceEnd s (acceptCompose s) := by
  unfold acceptCompose
  split
  · exact .raised _ _ _ ⟨rfl, rfl, rfl, _, _, _, rfl⟩
  · split
    · exact .raised _ _ _ ⟨rfl, rfl, rfl, _, _, _, rfl⟩
    · exact .running ⟨rfl, rfl, rfl, _, _, _, rfl⟩ rfl

theorem acceptDispose_end (s : State) : AcceptanceEnd s (acceptDispose s) := by
  unfold acceptDispose
  split
  · exact .raised _ _ _ ⟨rfl, rfl, rfl, _, _, _, rfl⟩
  · split
    · exact .finished ⟨rfl, rfl, rfl, _, _, _, rfl⟩
    · exact .running ⟨rfl, rfl, rfl, _, _, _, rfl⟩ rfl

theorem illegalCommand_end (w : Word) (s : State) : AcceptanceEnd s (illegalCommand w s) :=
  .raised _ _ _ ⟨rfl, rfl, rfl, _, _, _, rfl⟩

/-- Every CMD word but the exact SOFT_RESET and ABORT words is a request with the word's OP (R220). -/
theorem exec_decodeCmd_request {w : Word} (hreset : w ≠ 0x00000001) (habort : w ≠ 0x00000006) :
    ∃ f, (∀ s, AcceptanceEnd s (f s)) ∧ ∀ s, exec (decodeCmd w) s = .next (request (cmdOp w) f s) := by
  obtain ⟨henc, -⟩ := encode_decodeCmd w
  generalize decodeCmd w = i at henc ⊢
  cases i with
  | softReset => cases henc; exact absurd rfl hreset
  | abort => cases henc; exact absurd rfl habort
  | canvasInit => cases henc; exact ⟨acceptCanvasInit, acceptCanvasInit_end, fun _ => rfl⟩
  | lzwDecode => cases henc; exact ⟨acceptLzw, acceptLzw_end, fun _ => rfl⟩
  | compose => cases henc; exact ⟨acceptCompose, acceptCompose_end, fun _ => rfl⟩
  | dispose => cases henc; exact ⟨acceptDispose, acceptDispose_end, fun _ => rfl⟩
  | illegalOp0 | illegalOp7 | illegalOp8F low | illegalRsvd op rsvd =>
    exact ⟨illegalCommand w, illegalCommand_end w, exec_illegal rfl henc⟩
  | _ => cases henc

theorem request_busy {s : State} (hb : busy s = true) (op : BitVec 4) (acceptance : State → State) :
    request op acceptance s = reject op s := by
  rw [request, if_pos hb]

/-- A write to CMD executes the word (R220). -/
theorem writeWord_cmd (s : State) (w : Word) : Claims.writeWord s 0x004 w = exec (decodeCmd w) s := by
  rw [writeWord_register s w (by decide) rfl, registerWrite, if_pos rfl]

/-- NONE is the only error code 0 (R240). -/
theorem errorByte_ne_zero (e : ErrorCode) : errorByte e ≠ 0 := by
  cases e <;> decide

/-- What acceptance leaves in every case, and that it leaves exactly one of BUSY, DONE and ERR (R223). -/
structure Accepted (op : BitVec 4) (s t : State) : Prop where
  lastOp : t.status.lastOp = op
  rej : t.status.rej = s.status.rej
  rejOp : t.status.rejOp = s.status.rejOp
  rejMem : t.status.rejMem = s.status.rejMem
  abortReq : t.status.abortReq = s.status.abortReq
  regs : t.regs = s.regs
  outcome : (busy t = true ∧ t.status.done = false ∧ t.status.err = false)
    ∨ (busy t = false ∧ t.status.done = true ∧ t.status.err = false)
    ∨ (busy t = false ∧ t.status.done = false ∧ t.status.err = true)
  no_report : t.status.err = false → t.status.errCode = 0 ∧ t.errInfo0 = 0 ∧ t.errInfo1 = 0
  report : t.status.err = true → t.status.errCode ≠ 0

theorem AcceptanceEnd.accepted {op : BitVec 4} {s t : State} (h : AcceptanceEnd (accept op s) t) :
    Accepted op s t := by
  cases h with
  | raised e i0 i1 kept =>
    obtain ⟨hregs, -, -, _, _, _, hst⟩ := kept
    constructor
    case report => exact fun _ => errorByte_ne_zero e
    all_goals simp [hregs, hst, busy]
  | finished kept =>
    obtain ⟨hregs, hinfo0, hinfo1, _, _, _, hst⟩ := kept
    constructor <;> simp [hregs, hinfo0, hinfo1, hst, busy]
  | running kept runs =>
    obtain ⟨hregs, hinfo0, hinfo1, _, _, _, hst⟩ := kept
    constructor <;> simp [hregs, hinfo0, hinfo1, hst, runs]

/-! SOFT_RESET and the end by abort. -/

/-- Every register reads after SOFT_RESET as after reset (R227, R270). -/
theorem regRead_softReset (off : Nat) (s : State) : regRead off (softReset s) = regRead off State.reset := rfl

/-- The end by abort, but for the two validity flags it may clear (R230). -/
theorem endByAbort_eq (s : State) :
    endByAbort s = { s with
      eng := .idle
      status := { failed 0x0B s.status with
        abortReq := false
        canvasValid := (endByAbort s).status.canvasValid
        framePending := (endByAbort s).status.framePending }
      errInfo0 := 0
      errInfo1 := 0 } := by
  obtain ⟨_, eng, _⟩ := s
  cases eng <;> rfl

theorem endByAbort_flags_of_init_or_lzw {s : State} (he : s.eng = .init ∨ s.eng = .lzw) :
    (endByAbort s).status.canvasValid = s.status.canvasValid
      ∧ (endByAbort s).status.framePending = s.status.framePending := by
  rcases he with he | he <;> simp [endByAbort, he]

theorem endByAbort_flags_of_compose {s : State} (he : s.eng = .compV ∨ s.eng = .compS ∨ s.eng = .compW) :
    (endByAbort s).status.canvasValid = false ∧ (endByAbort s).status.framePending = false := by
  rcases he with he | he | he <;> simp [endByAbort, he]

theorem endByAbort_flags_of_disp {s : State} (he : s.eng = .disp) :
    (endByAbort s).status.canvasValid = false
      ∧ (endByAbort s).status.framePending = s.status.framePending := by
  simp [endByAbort, he]

/-- A running operation other than CANVAS_INIT and LZW_DECODE is a COMPOSE or a DISPOSE (R47). -/
theorem eng_compose_or_disp {s : State} (hb : busy s = true) (hinit : s.eng ≠ .init) (hlzw : s.eng ≠ .lzw) :
    (s.eng = .compV ∨ s.eng = .compS ∨ s.eng = .compW) ∨ s.eng = .disp := by
  have hidle : s.eng ≠ .idle := by simpa [busy] using hb
  cases he : s.eng <;> simp_all

end Sys2Proof.Machine

namespace Sys2Proof.Proofs

open Sys2Proof.Machine

/-- Settles O21: the word is a request, and CMD executes it. -/
theorem busyRejection : Obligations.BusyRejection := by
  intro s w hb hreset habort
  obtain ⟨f, -, hexec⟩ := exec_decodeCmd_request hreset habort
  rw [writeWord_cmd, hexec, request_busy hb]
  exact ⟨rfl, rfl⟩

/-- Settles O26: the word is a request, and its acceptance rule ends in one of the three ways. -/
theorem acceptanceOutcome : Obligations.AcceptanceOutcome := by
  intro s w hb hreset habort
  obtain ⟨f, hend, hexec⟩ := exec_decodeCmd_request hreset habort
  have h := (hend (accept (cmdOp w) s)).accepted
  refine ⟨f (accept (cmdOp w) s), ?_, h.lastOp, h.rej, h.rejOp, h.rejMem, h.abortReq, h.regs, h.outcome, h.no_report,
    h.report⟩
  rw [hexec, request_idle hb]

/-- Settles O22: SOFT_RESET is the reset state but for the memories it keeps and what belongs to the Host. -/
theorem softResetEffect : Obligations.SoftResetEffect := by
  intro s
  refine ⟨softReset s, rfl, fun off _ _ => ?_, rfl, rfl, rfl, fun _ => rfl, fun _ => rfl, fun _ => rfl, rfl, rfl⟩
  rw [regRead_softReset, regRead_reset]

/-- Settles O23: the two branches of ABORT. -/
theorem abortRequest : Obligations.AbortRequest := by
  intro s
  constructor <;> intro hb
  · exact congrArg Host.Outcome.next (if_pos hb)
  · exact congrArg Host.Outcome.next (if_neg (by simp [hb]))

/-- Settles O24: the step is the end by abort, whose flags each ENG_STATE gives. -/
theorem endByAbort : Obligations.EndByAbort := by
  intro s hb ha
  refine ⟨Machine.endByAbort s, engineStep_of_abort hb ha, endByAbort_eq s,
    fun he => (endByAbort_flags_of_init_or_lzw he).1, fun hinit hlzw => ?_,
    fun he => (endByAbort_flags_of_compose he).2, fun he => ?_⟩
  · rcases eng_compose_or_disp hb hinit hlzw with he | he
    · exact (endByAbort_flags_of_compose he).1
    · exact (endByAbort_flags_of_disp he).1
  · rcases he with he | he | he
    · exact (endByAbort_flags_of_init_or_lzw (.inl he)).2
    · exact (endByAbort_flags_of_init_or_lzw (.inr he)).2
    · exact (endByAbort_flags_of_disp he).2

end Sys2Proof.Proofs

/-! ## What the Host learns from STATUS: the caller kinds and the interrupt line (R240, R243, R250) -/

namespace Sys2Proof.Machine

open Claims (kindTable)

/-! The caller kinds. -/

/-- No two errors have the same value of ERR_CODE (R240). -/
theorem errorOfByte_errorByte (e : ErrorCode) : errorOfByte (errorByte e) = some e := by
  cases e <;> rfl

/-- The table of R243 has one row for each error: its value of ERR_CODE and its kind. -/
theorem mem_kindTable_iff {e : ErrorCode} {code : Byte} {kind : CallerKind} :
    (e, code, kind) ∈ kindTable ↔ code = errorByte e ∧ kind = callerKind e := by
  cases e <;> simp [kindTable, errorByte, callerKind]

/-- While ERR = 1 the Host reads the kind of the error that ERR_CODE names, whatever REJ is. -/
theorem callerKindOfStatus_of_err {s : State} {e : ErrorCode} (herr : s.status.err = true)
    (hcode : s.status.errCode = errorByte e) : callerKindOfStatus (statusWord s) = some (callerKind e) := by
  rw [callerKindOfStatus, statusWord_err, if_pos herr, statusWord_errCode, hcode, errorOfByte_errorByte]
  rfl

/-- With ERR = 0, REJ = 1 reads as a rejected request. -/
theorem callerKindOfStatus_of_rej {s : State} (herr : s.status.err = false) (hrej : s.status.rej = true) :
    callerKindOfStatus (statusWord s) = some .alreadyProcessing := by
  rw [callerKindOfStatus, statusWord_err, if_neg (by simp [herr]), statusWord_rej, if_pos hrej]

/-! IRQ_EN. -/

/-- The IRQ_EN word a Host reads has the three stored enables in its low bits (R28). -/
theorem regRead_irqEn_getLsbD (s : State) {i : Nat} (hi : i < 3) :
    (regRead 0x00C s).getLsbD i = s.regs.irqEn.getLsbD i := by
  change (s.regs.irqEn.setWidth 32).getLsbD i = _
  rw [BitVec.getLsbD_setWidth, decide_eq_true (show i < 32 by omega), Bool.true_and]

end Sys2Proof.Machine

namespace Sys2Proof.Proofs

open Sys2Proof.Machine Sys2Proof.Claims

/-- Settles O53: the table's row of an error holds its ERR_CODE and its kind, and ERR and REJ decide which kind the
STATUS word gives. -/
theorem callerKinds : Obligations.CallerKinds := by
  refine ⟨fun s e code kind hrow herr hcode => ?_, fun e => ⟨_, _, mem_kindTable_iff.mpr ⟨rfl, rfl⟩⟩,
    fun s => callerKindOfStatus_of_rej⟩
  obtain ⟨rfl, rfl⟩ := mem_kindTable_iff.mp hrow
  exact ⟨rfl, callerKindOfStatus_of_err herr hcode⟩

/-- Settles O14: the words at 0x008 and 0x00C hold the flags and the enables the line is made of. -/
theorem interruptLine : Obligations.InterruptLine := by
  intro s
  have hstatus : regRead 0x008 s = statusWord s := rfl
  rw [hstatus, statusWord_done, statusWord_err, statusWord_rej, regRead_irqEn_getLsbD s (by decide),
    regRead_irqEn_getLsbD s (by decide), regRead_irqEn_getLsbD s (by decide)]
  rfl

end Sys2Proof.Proofs
